-- ==== Sys2Proof/Word.lean ====
section
/-!
DEFINITION. The word types of the QCOM CPU: bytes, 12-bit addresses, register names and operand positions
(`00_scope.md` R4, R6).
-/
namespace Sys2Proof

/-- An 8-bit value: a register, a memory byte, an immediate, an offset or a port number (R4). -/
abbrev Byte := BitVec 8

/-- A 12-bit absolute memory address, 0x000 to 0xFFF (R4); arithmetic on it is modulo 4096 (R6). -/
abbrev Addr := BitVec 12

/-- One of the eight general registers R0 to R7 (`10_state.md` R11). -/
abbrev RegName := Fin 8

/-- R7, the register that is also the control register (`10_state.md` R13). -/
abbrev r7 : RegName := 7

/-- Which operand byte of an instruction: the first, at `pc + 1`, or the second, at `pc + 2`
(`30_encoding.md` R52). -/
inductive Slot where
  | op1
  | op2
deriving DecidableEq, Repr

end Sys2Proof
end

