-- ==== Sys2Proof/Config.lean ====
section
/-!
DEFINITION. The model's free value: the byte the input controller presents (`00_scope.md` R5).
The other parameters of R5 are arguments of `State.start` (INITIAL_MEMORY, RESET_REGS, RESET_DISP); the values
`State.reset` gives them stand in `Machine/ResetValues.lean`. PORT_SINK and SCREEN_SINK never feed back into the
CPU, so the model only records the events they receive (`State.trace`).
-/
namespace Sys2Proof

/-- `INPUT(t)`: the byte the input controller presents at read number `t` of address 0x080, counted from 0
(`20_memory.md` R35; D11). It has no body: nothing constrains it, and two reads may differ. Log 4, safe. -/
opaque Config.input : Nat → Byte

end Sys2Proof
end

