-- ==== Sys2Proof/Machine/ResetValues.lean ====
section
/-!
DEFINITION. The values `State.reset` takes where `70_reset_and_hazards.md` R200 states none. They stand here, apart
from State, because each is the model's choice (logs 1, 2 and 3) and not the spec's.
-/
namespace Sys2Proof.Machine

/-- DESIGN CHOICE (log 1, unsafe): what each of R0 to R7 holds in `State.reset`. The spec allows any value
(`RESET_REGS`, R200; D14); `State.start` takes any. -/
def resetRegister : Byte := 0x00

/-- DESIGN CHOICE (log 2, unsafe): what `disp` holds in `State.reset`. The spec allows any value
(`RESET_DISP`, R200; D14); `State.start` takes any. -/
def resetDisp : Byte := 0x00

/-- DESIGN CHOICE (log 3, unsafe): what a byte of memory reads as that the memory does not list. The spec leaves
`INITIAL_MEMORY` open (D15); its own test programs take every byte they do not list as 0x00. -/
def unlistedByte : Byte := 0x00

end Sys2Proof.Machine
end

