-- ==== Sys2Proof/Machine/State.lean ====
section
/-!
DEFINITION. The whole state of the machine (`10_state.md` R10) as plain data, its reset state (`70_reset_and_hazards.md`
R200), and the three outcomes' reasons.
-/
namespace Sys2Proof.Machine

/-- Why the machine stopped in the faulted state (`60_exceptions.md` R181 to R183). A step that meets such a situation
enters `RunState.faulted` (Ops.lean, `raise`); every later step answers with this reason as its fault. -/
inductive Fault where
  /-- `IllegalOpcode(pc, opcode)`: raised at decode for an opcode byte with no row in the opcode map (R182). Safe: real
  hardware may do something else (log 11). -/
  | illegalOpcode (pc : Addr) (opcode : Byte)
  /-- `IllegalRegister(pc, opcode, k, byte)`: raised at decode for a REG operand byte greater than 7 at position `k`
  (R183). Safe: real hardware may do something else (log 11). -/
  | illegalRegister (pc : Addr) (opcode : Byte) (k : Slot) (byte : Byte)
deriving DecidableEq, Repr

/-- Why an instruction was given no meaning. -/
inductive Refusal where
  /-- Raised by `exec` for an instruction the model does not cover, under its mnemonic. Safe. No instruction of this
  hardware is left so. -/
  | notModelled (mnemonic : String)
deriving DecidableEq, Repr

/-- Whether the CPU still executes (R20). -/
inductive RunState where
  | running
  /-- After `BRK`; final (R20, R192). -/
  | halted
  /-- After a decode fault; final (R20, R181). -/
  | faulted (reason : Fault)
deriving DecidableEq, Repr

/-- What the CPU has sent to the environment (R20). -/
inductive Event where
  /-- `Out(port, value)`, from `OUT`. -/
  | out (port value : Byte)
  /-- `Show(bytes)`, the display buffer as it was, from `SHW`. -/
  | show (bytes : List Byte)
  /-- `Clear(colour)`, from `CLS`. -/
  | clear (colour : Byte)
  /-- `Disp(value)`, from `DIS`. -/
  | disp (value : Byte)
deriving DecidableEq, Repr

/-- Memory: the bytes that differ from `unlistedByte`, in ascending order of address (`Memory.wf`, Ops.lean). -/
abbrev Memory := List Host.Cell

/-- The architectural state (R10), and `inputReads`, which is the model's own. -/
structure State where
  /-- R0 to R7 (R11); R7 also holds ZF in bit 0 and PAGE in bits 7:4 (R13). -/
  regs : Vector Byte 8
  /-- The address of the next instruction's opcode byte (R17). -/
  pc : Addr
  /-- The one memory, code and data (R21); 0x080 is not in it. -/
  mem : Memory
  /-- The internal display register (R19). -/
  disp : Byte
  /-- Whether the CPU still executes (R20). -/
  run : RunState
  /-- The events sent so far, oldest first (R20). -/
  trace : List Event
  /-- How many reads of 0x080 have been made: the `t` of the next draw `INPUT(t)` (`20_memory.md` R35; log 4). -/
  inputReads : Nat
deriving DecidableEq, Repr

/-- The state a run starts in, for any RESET_REGS, RESET_DISP and INITIAL_MEMORY (`70_reset_and_hazards.md` R200,
R202; `00_scope.md` R5): the pc at 0x090, running, nothing sent. -/
def State.start (regs : Vector Byte 8) (disp : Byte) (image : Memory) : State where
  regs := regs
  pc := 0x090
  mem := image
  disp := disp
  run := .running
  trace := []
  inputReads := 0

/-- The machine right after reset: the start state at the values `ResetValues.lean` names, with no memory listed
(R200; logs 1 to 5). -/
def State.reset : State :=
  State.start (Vector.replicate 8 resetRegister) resetDisp []

end Sys2Proof.Machine
end

