-- ==== Sys2Proof/Machine/Ops.lean ====
section
/-!
DEFINITION. The named operations over memory, registers and the rest of the state; entering the faulted state; and what
a machine does that no longer runs. Every update is one plain record update, so that each of its fields is known by rfl
(`Laws/State.lean`).
-/
namespace Sys2Proof.Machine

/-! ## Memory (`20_memory.md`) -/

/-- The byte listed at an address, or the byte an unlisted address reads as. -/
def Memory.read : Memory → Nat → Byte
  | [], _ => unlistedByte
  | (b, w) :: m, a => if a = b then w else Memory.read m a

/-- Write one byte, keeping the canonical form: a byte equal to `unlistedByte` is not listed. -/
def Memory.write : Memory → Nat → Byte → Memory
  | [], a, v => if v = unlistedByte then [] else [(a, v)]
  | (b, w) :: m, a, v =>
    if a < b then (if v = unlistedByte then (b, w) :: m else (a, v) :: (b, w) :: m)
    else if a = b then (if v = unlistedByte then m else (a, v) :: m)
    else (b, w) :: Memory.write m a v

/-- The absolute address of the input controller's byte (R35). -/
def inputAddr : Addr := 0x080

/-- The canonical form: addresses strictly rising, each one of the 4096 and not the device byte, which has no backing
store (R21, R35; D11), and no entry equal to what an unlisted address reads as. -/
abbrev Memory.wf (m : Memory) : Prop :=
  m.Pairwise (fun c d => c.1 < d.1) ∧
    ∀ c ∈ m, c.2 ≠ unlistedByte ∧ c.1 < 4096 ∧ c.1 ≠ inputAddr.toNat

/-- `mem[a]`: the byte of plain storage at an address, with no read made (R33). -/
def State.byteAt (s : State) (a : Addr) : Byte :=
  s.mem.read a.toNat

/-- `MemRead(a, 1)` (R33): the stored byte, or at 0x080 the draw `INPUT(t)` (R35). The state after it differs only in
the number of draws made. -/
def State.memRead (s : State) (a : Addr) : Byte × State :=
  (if a = inputAddr then Config.input s.inputReads else s.byteAt a,
   { s with inputReads := if a = inputAddr then s.inputReads + 1 else s.inputReads })

/-- `MemWrite(a, 1, v)` (R34): a write to 0x080 is dropped. -/
def State.memWrite (s : State) (a : Addr) (v : Byte) : State :=
  { s with mem := if a = inputAddr then s.mem else s.mem.write a.toNat v }

/-- Place bytes at ascending addresses modulo 4096, as the host does before a run (`70_reset_and_hazards.md` R203). -/
def State.load (s : State) (a : Addr) : List Byte → State
  | [] => s
  | v :: vs => (s.memWrite a v).load (a + 1) vs

/-! ## Registers (`10_state.md`) -/

/-- `x[r]` (R11). -/
def State.getReg (s : State) (r : RegName) : Byte :=
  s.regs[r]

/-- `x[r] <- v`: no register is hardwired (R11). -/
def State.setReg (s : State) (r : RegName) (v : Byte) : State :=
  { s with regs := s.regs.set r.val v r.isLt }

/-! ## The program counter, the display register, the trace and the run state -/

/-- `pc <- (pc + n) mod 4096` (R18). -/
def State.advance (s : State) (n : Nat) : State :=
  { s with pc := s.pc + BitVec.ofNat 12 n }

/-- `pc <- target` (`00_scope.md` R6). -/
def State.setPc (s : State) (target : Addr) : State :=
  { s with pc := target }

/-- `disp <- v` (R19). -/
def State.setDisp (s : State) (v : Byte) : State :=
  { s with disp := v }

/-- `emit e`: append to the trace (R20). -/
def State.emit (s : State) (e : Event) : State :=
  { s with trace := s.trace ++ [e] }

/-- `run <- Halted` (`41_io_system.md` R98). -/
def State.halt (s : State) : State :=
  { s with run := .halted }

/-- The 128 bytes of the display buffer as they are, at absolute addresses (`41_io_system.md` R99; C8). -/
def State.displayBuffer (s : State) : List Byte :=
  (List.range 128).map s.mem.read

/-! ## Faults and stopping (`60_exceptions.md`) -/

/-- `raise fault`: the machine enters the faulted state and nothing else changes (R181). There is no handler, and so no
return from one (R186). -/
def State.raise (s : State) (f : Fault) : State :=
  { s with run := .faulted f }

/-- A halted machine stays as it is: nothing changes after `BRK` (R192; log 6). -/
def afterHalt (s : State) : Host.Outcome State Fault Refusal :=
  .next s

/-- A faulted machine executes no further instruction (R181): its step answers with the reason (log 7). -/
def afterFault (f : Fault) : Host.Outcome State Fault Refusal :=
  .fault f

end Sys2Proof.Machine
end

