-- ==== Sys2Proof/Machine/Flags.lean ====
section
/-!
DEFINITION. The one flag, ZF, in bit 0 of R7 (`10_state.md` R13, R15).
-/
namespace Sys2Proof.Machine

/-- ZF: bit 0 of R7. -/
def State.zf (s : State) : Bool :=
  (s.getReg r7).getLsbD 0

/-- The flag bit of a value: 1 when it is exactly zero, else 0 (R15). -/
def zeroBit (v : Byte) : Byte :=
  if v = 0 then 1 else 0

/-- `setZF(v)`: bit 0 of R7 and no other bit (R15). -/
def State.setZF (s : State) (v : Byte) : State :=
  s.setReg r7 ((s.getReg r7 &&& 0xFE) ||| zeroBit v)

end Sys2Proof.Machine
end

