-- ==== Sys2Proof/Machine/Operands.lean ====
section
/-!
DEFINITION. Effective addresses, the operand forms (`20_memory.md` R30 to R32), and the shapes the instructions share:
read the sources, compute, write the destination, setZF, write the pc (`00_scope.md` R7). Every address is formed from
R7 as it is when the form is resolved, which is before the instruction writes anything (R31).
-/
namespace Sys2Proof.Machine

/-- PAGE: bits 7:4 of R7 (`10_state.md` R13). -/
def State.page (s : State) : BitVec 4 :=
  (s.getReg r7).extractLsb' 4 4

/-- `EA(off) = (PAGE << 8) | off` (R30). -/
def State.ea (s : State) (off : Byte) : Addr :=
  s.page ++ off

/-- A place that holds a byte: a register, or a memory byte by its address. -/
inductive Place where
  | reg (r : RegName)
  | mem (a : Addr)
deriving DecidableEq, Repr

/-- What an instruction takes a value from: the operand byte itself, or a place. -/
inductive Source where
  | imm (v : Byte)
  | place (p : Place)
deriving DecidableEq, Repr

/-! ## The modes that name a memory byte (R32) -/

/-- Direct: `mem[EA(a)]`. -/
def direct (a : Byte) (s : State) : Place :=
  .mem (s.ea a)

/-- Register-indirect: `mem[EA(x[p])]`. -/
def viaReg (p : RegName) (s : State) : Place :=
  .mem (s.ea (s.getReg p))

/-- Memory-indirect: `mem[EA(mem[EA(a)])]`, with the state after the pointer byte is read; both levels use one page. -/
def viaMem (a : Byte) (s : State) : Place × State :=
  let ptr := s.memRead (s.ea a)
  (.mem (s.ea ptr.1), ptr.2)

/-! ## Reading and writing places -/

/-- The byte a place holds, and the state after it is read. -/
def readPlace : Place → State → Byte × State
  | .reg r, s => (s.getReg r, s)
  | .mem a, s => s.memRead a

/-- The value of a source, and the state after it is read. -/
def readSource : Source → State → Byte × State
  | .imm v, s => (v, s)
  | .place p, s => readPlace p s

/-- Put a byte into a place. -/
def writePlace : Place → Byte → State → State
  | .reg r, v, s => s.setReg r v
  | .mem a, v, s => s.memWrite a v

/-! ## The shapes of the instructions -/

/-- The end of a flag-setting instruction of `n` bytes: write the result `v` to its place, set ZF from `z`, advance the
pc (`00_scope.md` R7 steps 5 to 7). -/
def retire (p : Place) (v z : Byte) (n : Nat) (s : State) : State :=
  ((writePlace p v s).setZF z).advance n

/-- Move the source's value to a place; ZF from the value moved. -/
def move (p : Place) (src : Source) (n : Nat) (s : State) : State :=
  let v := readSource src s
  retire p v.1 v.1 n v.2

/-- Move the source's value to a place; ZF from the pointer `ptr` that named the place (`MIL` 0x50 to 0x52; C2). -/
def moveFlagPointer (p : Place) (ptr : Byte) (src : Source) (n : Nat) (s : State) : State :=
  let v := readSource src s
  retire p v.1 ptr n v.2

/-- Read a place, apply `f`, write the result back to it; ZF from the result. -/
def unary (f : Byte → Byte) (p : Place) (n : Nat) (s : State) : State :=
  let v := readPlace p s
  retire p (f v.1) (f v.1) n v.2

/-- `first <- first OP second`: the place is the left source and the destination (`43_logical.md` R120,
`44_arithmetic.md` R140); ZF from the result. -/
def binary (f : Byte → Byte → Byte) (p : Place) (src : Source) (n : Nat) (s : State) : State :=
  let x := readPlace p s
  let y := readSource src x.2
  retire p (f x.1 y.1) (f x.1 y.1) n y.2

/-- Send the source's value to the environment as an event; no flag, register or memory byte changes. -/
def send (event : Byte → Event) (src : Source) (n : Nat) (s : State) : State :=
  let v := readSource src s
  (v.2.emit (event v.1)).advance n

/-- Jump to the offset `t` in the active page when `taken`, else go on after the `n` bytes of the instruction
(`45_control_flow.md` R160). -/
def branch (taken : Bool) (t : Byte) (n : Nat) (s : State) : State :=
  s.setPc (if taken then s.ea t else s.pc + BitVec.ofNat 12 n)

end Sys2Proof.Machine
end

