-- ==== Sys2Proof/Machine/Arithmetic.lean ====
section
/-!
DEFINITION. The meanings of ADD, SUB, INC and DEC (`44_arithmetic.md`): the low 8 bits of the exact result (R153).
-/
namespace Sys2Proof.Machine

/-- The exact sum, narrowed to 8 bits (R140, R153). -/
def addByte (x y : Byte) : Byte :=
  BitVec.ofNat 8 (x.toNat + y.toNat)

/-- The exact difference, narrowed to 8 bits (R140, R153). -/
def subByte (x y : Byte) : Byte :=
  BitVec.ofInt 8 ((x.toNat : Int) - (y.toNat : Int))

/-- One more, modulo 256 (R149). -/
def increment (v : Byte) : Byte :=
  addByte v 1

/-- One less, modulo 256 (R151). -/
def decrement (v : Byte) : Byte :=
  subByte v 1

/-- 0x30 `ADD REG, IMM` (R141): addition modulo 256 of a register and an immediate, into the register. -/
def execAddRI (d : RegName) (imm : Byte) (s : State) : Host.Outcome State Fault Refusal :=
  .next (binary addByte (.reg d) (.imm imm) 3 s)

/-- 0x31 `ADD ADDR, REG` (R142): addition modulo 256 of a memory byte and a register, into memory. -/
def execAddAR (a : Byte) (src : RegName) (s : State) : Host.Outcome State Fault Refusal :=
  .next (binary addByte (direct a s) (.place (.reg src)) 3 s)

/-- 0x32 `ADD REG, ADDR` (R143): addition modulo 256 of a register and a memory byte, into the register. -/
def execAddRA (d : RegName) (a : Byte) (s : State) : Host.Outcome State Fault Refusal :=
  .next (binary addByte (.reg d) (.place (direct a s)) 3 s)

/-- 0x33 `ADD REG, REG` (R144): addition modulo 256 of two registers, into the first. -/
def execAddRR (d src : RegName) (s : State) : Host.Outcome State Fault Refusal :=
  .next (binary addByte (.reg d) (.place (.reg src)) 3 s)

/-- 0x34 `SUB REG, IMM` (R145): subtraction modulo 256 of a register and an immediate, into the register. -/
def execSubRI (d : RegName) (imm : Byte) (s : State) : Host.Outcome State Fault Refusal :=
  .next (binary subByte (.reg d) (.imm imm) 3 s)

/-- 0x35 `SUB ADDR, REG` (R146): subtraction modulo 256 of a memory byte and a register, into memory. -/
def execSubAR (a : Byte) (src : RegName) (s : State) : Host.Outcome State Fault Refusal :=
  .next (binary subByte (direct a s) (.place (.reg src)) 3 s)

/-- 0x36 `SUB REG, ADDR` (R147): subtraction modulo 256 of a register and a memory byte, into the register. -/
def execSubRA (d : RegName) (a : Byte) (s : State) : Host.Outcome State Fault Refusal :=
  .next (binary subByte (.reg d) (.place (direct a s)) 3 s)

/-- 0x37 `SUB REG, REG` (R148): subtraction modulo 256 of two registers, into the first. -/
def execSubRR (d src : RegName) (s : State) : Host.Outcome State Fault Refusal :=
  .next (binary subByte (.reg d) (.place (.reg src)) 3 s)

/-- 0x38 `INC REG` (R149): add one, modulo 256 on a register. -/
def execIncR (r : RegName) (s : State) : Host.Outcome State Fault Refusal :=
  .next (unary increment (.reg r) 2 s)

/-- 0x39 `INC ADDR` (R150): add one, modulo 256 on a value in memory. -/
def execIncA (a : Byte) (s : State) : Host.Outcome State Fault Refusal :=
  .next (unary increment (direct a s) 2 s)

/-- 0x3A `DEC REG` (R151): subtract one, modulo 256 on a register. -/
def execDecR (r : RegName) (s : State) : Host.Outcome State Fault Refusal :=
  .next (unary decrement (.reg r) 2 s)

/-- 0x3B `DEC ADDR` (R152): subtract one, modulo 256 on a value in memory. -/
def execDecA (a : Byte) (s : State) : Host.Outcome State Fault Refusal :=
  .next (unary decrement (direct a s) 2 s)

end Sys2Proof.Machine
end

