-- ==== Sys2Proof/Machine/ControlFlow.lean ====
section
/-!
DEFINITION. The meanings of JMP, JIF and JNI (`45_control_flow.md`). The target is an offset in the active page (R160; D3); a
conditional jump is taken only when the condition operand is exactly 1 (R168; D8). No flag changes.
-/
namespace Sys2Proof.Machine

/-- 0x40 `JMP IMM` (R161): jumps to the offset; the byte is not dereferenced (C5). -/
def execJmpI (t : Byte) (s : State) : Host.Outcome State Fault Refusal :=
  .next (branch true t 2 s)

/-- 0x41 `JMP REG` (R162): jumps to the offset a register holds. -/
def execJmpR (r : RegName) (s : State) : Host.Outcome State Fault Refusal :=
  .next (branch true (s.getReg r) 2 s)

/-- 0x42 `JIF IMM, IMM` (R163): jumps when the condition operand is 1 and ZF is set. -/
def execJifII (c t : Byte) (s : State) : Host.Outcome State Fault Refusal :=
  .next (branch (c = 1 && s.zf) t 3 s)

/-- 0x43 `JIF IMM, REG` (R164): jumps to the offset in a register when the condition operand is 1 and ZF is set. -/
def execJifIR (c : Byte) (r : RegName) (s : State) : Host.Outcome State Fault Refusal :=
  .next (branch (c = 1 && s.zf) (s.getReg r) 3 s)

/-- 0x44 `JNI IMM, IMM` (R165): jumps when the condition operand is 1 and ZF is clear. -/
def execJniII (c t : Byte) (s : State) : Host.Outcome State Fault Refusal :=
  .next (branch (c = 1 && !s.zf) t 3 s)

/-- 0x45 `JNI IMM, REG` (R166): jumps to the offset in a register when the condition operand is 1 and ZF is clear. -/
def execJniIR (c : Byte) (r : RegName) (s : State) : Host.Outcome State Fault Refusal :=
  .next (branch (c = 1 && !s.zf) (s.getReg r) 3 s)

end Sys2Proof.Machine
end

