-- ==== Sys2Proof/Machine/DataTransfer.lean ====
section
/-!
DEFINITION. The meanings of MOV, MIL and MFI (`40_data_transfer.md`). The first operand is the destination (R70; D6).
-/
namespace Sys2Proof.Machine

/-- 0x10 `MOV REG, IMM` (R71): "Moves an 8-bit immediate value into a register." -/
def execMovRI (d : RegName) (imm : Byte) (s : State) : Host.Outcome State Fault Refusal :=
  .next (move (.reg d) (.imm imm) 3 s)

/-- 0x11 `MOV ADDR, REG` (R72): "Stores the 8-bit value from a register into a memory location." -/
def execMovAR (a : Byte) (src : RegName) (s : State) : Host.Outcome State Fault Refusal :=
  .next (move (direct a s) (.place (.reg src)) 3 s)

/-- 0x12 `MOV REG, ADDR` (R73): "Loads an 8-bit value from a memory location into a register." -/
def execMovRA (d : RegName) (a : Byte) (s : State) : Host.Outcome State Fault Refusal :=
  .next (move (.reg d) (.place (direct a s)) 3 s)

/-- 0x13 `MOV REG, REG` (R74): "Copies an 8-bit value from a source register to a destination register." -/
def execMovRR (d src : RegName) (s : State) : Host.Outcome State Fault Refusal :=
  .next (move (.reg d) (.place (.reg src)) 3 s)

/-- 0x50 `MIL REG, IMM` (R75): "Stores an immediate value at the memory address pointed to by a register"; ZF from
the pointer (C2). -/
def execMilRI (p : RegName) (imm : Byte) (s : State) : Host.Outcome State Fault Refusal :=
  .next (moveFlagPointer (viaReg p s) (s.getReg p) (.imm imm) 3 s)

/-- 0x51 `MIL REG, REG` (R76): "Stores a value from a source register at the memory address pointed to by another
register"; ZF from the pointer. -/
def execMilRR (p src : RegName) (s : State) : Host.Outcome State Fault Refusal :=
  .next (moveFlagPointer (viaReg p s) (s.getReg p) (.place (.reg src)) 3 s)

/-- 0x52 `MIL REG, ADDR` (R77): "Stores a value from a memory location at the address pointed to by a register"; ZF
from the pointer. -/
def execMilRA (p : RegName) (a : Byte) (s : State) : Host.Outcome State Fault Refusal :=
  .next (moveFlagPointer (viaReg p s) (s.getReg p) (.place (direct a s)) 3 s)

/-- 0x53 `MIL ADDR, REG` (R78): "Stores a register's value at the address pointed to by a value in memory"; ZF from
the value written. -/
def execMilAR (a : Byte) (src : RegName) (s : State) : Host.Outcome State Fault Refusal :=
  let pointed := viaMem a s
  .next (move pointed.1 (.place (.reg src)) 3 pointed.2)

/-- 0x54 `MFI REG, REG` (R79): "Loads a value from the memory address pointed to by a source register into a
destination register." -/
def execMfiRR (d p : RegName) (s : State) : Host.Outcome State Fault Refusal :=
  .next (move (.reg d) (.place (viaReg p s)) 3 s)

/-- 0x55 `MFI REG, ADDR` (R80): "Loads a value from an indirect memory location (pointed to by another memory
location) into a register." -/
def execMfiRA (d : RegName) (a : Byte) (s : State) : Host.Outcome State Fault Refusal :=
  let pointed := viaMem a s
  .next (move (.reg d) (.place pointed.1) 3 pointed.2)

/-- 0x56 `MFI ADDR, REG` (R81): "Stores a value from the memory address pointed to by a register into another memory
location." -/
def execMfiAR (a : Byte) (p : RegName) (s : State) : Host.Outcome State Fault Refusal :=
  .next (move (direct a s) (.place (viaReg p s)) 3 s)

/-- 0x57 `MFI ADDR, ADDR` (R82): "Stores a value from an indirect memory location (pointed to by a memory location)
into another memory location." -/
def execMfiAA (a1 a2 : Byte) (s : State) : Host.Outcome State Fault Refusal :=
  let pointed := viaMem a2 s
  .next (move (direct a1 s) (.place pointed.1) 3 pointed.2)

end Sys2Proof.Machine
end

