-- ==== Sys2Proof/Machine/IoSystem.lean ====
section
/-!
DEFINITION. The meanings of DIS, IN, OUT, BRK, SHW and CLS (`41_io_system.md`). What the devices do with an event is not
in the spec: the event is recorded (D12, D13; log 16).
-/
namespace Sys2Proof.Machine

/-- Write the source's value to the display register and send it (R90 to R92); no flag changes. -/
def display (src : Source) (n : Nat) (s : State) : State :=
  let v := readSource src s
  ((v.2.setDisp v.1).emit (.disp v.1)).advance n

/-- 0x01 `DIS IMM` (R90): "Sets an internal display register to an immediate value for debugging." -/
def execDisI (imm : Byte) (s : State) : Host.Outcome State Fault Refusal :=
  .next (display (.imm imm) 2 s)

/-- 0x02 `DIS REG` (R91): "Sets an internal display register to the value of a register." -/
def execDisR (src : RegName) (s : State) : Host.Outcome State Fault Refusal :=
  .next (display (.place (.reg src)) 2 s)

/-- 0x03 `DIS ADDR` (R92): "Sets an internal display register to the value from a memory location." -/
def execDisA (a : Byte) (s : State) : Host.Outcome State Fault Refusal :=
  .next (display (.place (direct a s)) 2 s)

/-- 0x04 `IN REG` (R93): "Reads the 8-bit state from the input controller at 0x080 into a register", whatever PAGE
holds (C8). -/
def execInR (d : RegName) (s : State) : Host.Outcome State Fault Refusal :=
  .next (move (.reg d) (.place (.mem inputAddr)) 2 s)

/-- 0x05 `OUT IMM, IMM` (R95): "Sends an immediate value to an I/O port specified by an immediate value." -/
def execOutII (port v : Byte) (s : State) : Host.Outcome State Fault Refusal :=
  .next (send (.out port) (.imm v) 3 s)

/-- 0x06 `OUT IMM, REG` (R96): "Sends a register's value to an I/O port specified by an immediate value." -/
def execOutIR (port : Byte) (src : RegName) (s : State) : Host.Outcome State Fault Refusal :=
  .next (send (.out port) (.place (.reg src)) 3 s)

/-- 0x07 `OUT IMM, ADDR` (R97): "Sends a value from memory to an I/O port specified by an immediate value." -/
def execOutIA (port a : Byte) (s : State) : Host.Outcome State Fault Refusal :=
  .next (send (.out port) (.place (direct a s)) 3 s)

/-- 0x0F `BRK` (R98): "Halts program execution"; the pc ends one past the opcode byte. -/
def execBrk (s : State) : Host.Outcome State Fault Refusal :=
  .next (s.advance 1).halt

/-- 0x14 `SHW` (R99): "Renders the contents of the display buffer (0x000-0x07F) to the screen": absolute addresses
(C8). -/
def execShw (s : State) : Host.Outcome State Fault Refusal :=
  .next ((s.emit (.show s.displayBuffer)).advance 1)

/-- 0x15 `CLS IMM` (R100): "Clears the screen to a specific color value"; memory is not changed (D13). -/
def execClsI (colour : Byte) (s : State) : Host.Outcome State Fault Refusal :=
  .next (send .clear (.imm colour) 2 s)

end Sys2Proof.Machine
end

