-- ==== Sys2Proof/Machine/Logical.lean ====
section
/-!
DEFINITION. The meanings of AND, OR, XOR and NOT (`43_logical.md`). The first operand is the left source and the
destination (R120; D6).
-/
namespace Sys2Proof.Machine

/-- Each bit by itself (R120). -/
def bitAnd (x y : Byte) : Byte :=
  x &&& y

/-- Each bit by itself (R120). -/
def bitOr (x y : Byte) : Byte :=
  x ||| y

/-- Each bit by itself (R120). -/
def bitXor (x y : Byte) : Byte :=
  x ^^^ y

/-- Every bit inverted (R133). -/
def invert (v : Byte) : Byte :=
  ~~~v

/-- 0x20 `AND REG, IMM` (R121): bitwise AND of a register and an immediate, into the register. -/
def execAndRI (d : RegName) (imm : Byte) (s : State) : Host.Outcome State Fault Refusal :=
  .next (binary bitAnd (.reg d) (.imm imm) 3 s)

/-- 0x21 `AND ADDR, REG` (R122): bitwise AND of a memory byte and a register, into memory. -/
def execAndAR (a : Byte) (src : RegName) (s : State) : Host.Outcome State Fault Refusal :=
  .next (binary bitAnd (direct a s) (.place (.reg src)) 3 s)

/-- 0x22 `AND REG, ADDR` (R123): bitwise AND of a register and a memory byte, into the register. -/
def execAndRA (d : RegName) (a : Byte) (s : State) : Host.Outcome State Fault Refusal :=
  .next (binary bitAnd (.reg d) (.place (direct a s)) 3 s)

/-- 0x23 `AND REG, REG` (R124): bitwise AND of two registers, into the first. -/
def execAndRR (d src : RegName) (s : State) : Host.Outcome State Fault Refusal :=
  .next (binary bitAnd (.reg d) (.place (.reg src)) 3 s)

/-- 0x24 `OR REG, IMM` (R125): bitwise OR of a register and an immediate, into the register. -/
def execOrRI (d : RegName) (imm : Byte) (s : State) : Host.Outcome State Fault Refusal :=
  .next (binary bitOr (.reg d) (.imm imm) 3 s)

/-- 0x25 `OR ADDR, REG` (R126): bitwise OR of a memory byte and a register, into memory. -/
def execOrAR (a : Byte) (src : RegName) (s : State) : Host.Outcome State Fault Refusal :=
  .next (binary bitOr (direct a s) (.place (.reg src)) 3 s)

/-- 0x26 `OR REG, ADDR` (R127): bitwise OR of a register and a memory byte, into the register. -/
def execOrRA (d : RegName) (a : Byte) (s : State) : Host.Outcome State Fault Refusal :=
  .next (binary bitOr (.reg d) (.place (direct a s)) 3 s)

/-- 0x27 `OR REG, REG` (R128): bitwise OR of two registers, into the first. -/
def execOrRR (d src : RegName) (s : State) : Host.Outcome State Fault Refusal :=
  .next (binary bitOr (.reg d) (.place (.reg src)) 3 s)

/-- 0x28 `XOR REG, IMM` (R129): bitwise XOR of a register and an immediate, into the register. -/
def execXorRI (d : RegName) (imm : Byte) (s : State) : Host.Outcome State Fault Refusal :=
  .next (binary bitXor (.reg d) (.imm imm) 3 s)

/-- 0x29 `XOR ADDR, REG` (R130): bitwise XOR of a memory byte and a register, into memory. -/
def execXorAR (a : Byte) (src : RegName) (s : State) : Host.Outcome State Fault Refusal :=
  .next (binary bitXor (direct a s) (.place (.reg src)) 3 s)

/-- 0x2A `XOR REG, ADDR` (R131): bitwise XOR of a register and a memory byte, into the register. -/
def execXorRA (d : RegName) (a : Byte) (s : State) : Host.Outcome State Fault Refusal :=
  .next (binary bitXor (.reg d) (.place (direct a s)) 3 s)

/-- 0x2B `XOR REG, REG` (R132): bitwise XOR of two registers, into the first. -/
def execXorRR (d src : RegName) (s : State) : Host.Outcome State Fault Refusal :=
  .next (binary bitXor (.reg d) (.place (.reg src)) 3 s)

/-- 0x2C `NOT REG` (R133): bitwise inversion on a register. -/
def execNotR (r : RegName) (s : State) : Host.Outcome State Fault Refusal :=
  .next (unary invert (.reg r) 2 s)

/-- 0x2D `NOT ADDR` (R134): bitwise inversion on a value in memory. -/
def execNotA (a : Byte) (s : State) : Host.Outcome State Fault Refusal :=
  .next (unary invert (direct a s) 2 s)

end Sys2Proof.Machine
end

