-- ==== Sys2Proof/Machine/ShiftRotate.lean ====
section
/-!
DEFINITION. The meanings of SBL, SBR, RBL and RBR (`42_shift_rotate.md`).
-/
namespace Sys2Proof.Machine

/-- Bit 7 is lost, bit 0 becomes 0 (R110). -/
def shl1 (v : Byte) : Byte :=
  v <<< 1

/-- Bit 0 is lost, bit 7 becomes 0 (R110). -/
def shr1 (v : Byte) : Byte :=
  v >>> 1

/-- Old bit 7 becomes new bit 0 (R110). -/
def rol1 (v : Byte) : Byte :=
  (v <<< 1) ||| (v >>> 7)

/-- Old bit 0 becomes new bit 7 (R110). -/
def ror1 (v : Byte) : Byte :=
  (v >>> 1) ||| ((v &&& 1) <<< 7)

/-- 0x18 `SBL REG` (R111): logical shift left by one bit on a register. -/
def execSblR (r : RegName) (s : State) : Host.Outcome State Fault Refusal :=
  .next (unary shl1 (.reg r) 2 s)

/-- 0x19 `SBL ADDR` (R112): logical shift left by one bit on a value in memory. -/
def execSblA (a : Byte) (s : State) : Host.Outcome State Fault Refusal :=
  .next (unary shl1 (direct a s) 2 s)

/-- 0x1A `SBR REG` (R113): logical shift right by one bit on a register. -/
def execSbrR (r : RegName) (s : State) : Host.Outcome State Fault Refusal :=
  .next (unary shr1 (.reg r) 2 s)

/-- 0x1B `SBR ADDR` (R114): logical shift right by one bit on a value in memory. -/
def execSbrA (a : Byte) (s : State) : Host.Outcome State Fault Refusal :=
  .next (unary shr1 (direct a s) 2 s)

/-- 0x1C `RBL REG` (R115): rotate left by one position on a register. -/
def execRblR (r : RegName) (s : State) : Host.Outcome State Fault Refusal :=
  .next (unary rol1 (.reg r) 2 s)

/-- 0x1D `RBL ADDR` (R116): rotate left by one position on a value in memory. -/
def execRblA (a : Byte) (s : State) : Host.Outcome State Fault Refusal :=
  .next (unary rol1 (direct a s) 2 s)

/-- 0x1E `RBR REG` (R117): rotate right by one position on a register. -/
def execRbrR (r : RegName) (s : State) : Host.Outcome State Fault Refusal :=
  .next (unary ror1 (.reg r) 2 s)

/-- 0x1F `RBR ADDR` (R118): rotate right by one position on a value in memory. -/
def execRbrA (a : Byte) (s : State) : Host.Outcome State Fault Refusal :=
  .next (unary ror1 (direct a s) 2 s)

end Sys2Proof.Machine
end

