-- ==== Sys2Proof/Syntax.lean ====
section
/-!
DEFINITION. The instructions: one constructor for each of the 62 rows of the opcode map (`30_encoding.md` R56).
A constructor is its mnemonic in lower case followed by its format of R53 (R a register, I an immediate, A an 8-bit
offset, in the order written); REG operands are register names, so a register that does not exist cannot be written.
-/
namespace Sys2Proof

/-- An instruction with its operands, in the order of the opcode map (R56). -/
inductive Instr where
  /-- 0x01 `DIS IMM` (R90). -/
  | disI (imm : Byte)
  /-- 0x02 `DIS REG` (R91). -/
  | disR (s : RegName)
  /-- 0x03 `DIS ADDR` (R92). -/
  | disA (a : Byte)
  /-- 0x04 `IN REG` (R93). -/
  | inR (d : RegName)
  /-- 0x05 `OUT IMM, IMM` (R95). -/
  | outII (port v : Byte)
  /-- 0x06 `OUT IMM, REG` (R96). -/
  | outIR (port : Byte) (s : RegName)
  /-- 0x07 `OUT IMM, ADDR` (R97). -/
  | outIA (port a : Byte)
  /-- 0x0F `BRK` (R98). -/
  | brk
  /-- 0x10 `MOV REG, IMM` (R71). -/
  | movRI (d : RegName) (imm : Byte)
  /-- 0x11 `MOV ADDR, REG` (R72). -/
  | movAR (a : Byte) (s : RegName)
  /-- 0x12 `MOV REG, ADDR` (R73). -/
  | movRA (d : RegName) (a : Byte)
  /-- 0x13 `MOV REG, REG` (R74). -/
  | movRR (d s : RegName)
  /-- 0x14 `SHW` (R99). -/
  | shw
  /-- 0x15 `CLS IMM` (R100). -/
  | clsI (colour : Byte)
  /-- 0x18 `SBL REG` (R111). -/
  | sblR (r : RegName)
  /-- 0x19 `SBL ADDR` (R112). -/
  | sblA (a : Byte)
  /-- 0x1A `SBR REG` (R113). -/
  | sbrR (r : RegName)
  /-- 0x1B `SBR ADDR` (R114). -/
  | sbrA (a : Byte)
  /-- 0x1C `RBL REG` (R115). -/
  | rblR (r : RegName)
  /-- 0x1D `RBL ADDR` (R116). -/
  | rblA (a : Byte)
  /-- 0x1E `RBR REG` (R117). -/
  | rbrR (r : RegName)
  /-- 0x1F `RBR ADDR` (R118). -/
  | rbrA (a : Byte)
  /-- 0x20 `AND REG, IMM` (R121). -/
  | andRI (d : RegName) (imm : Byte)
  /-- 0x21 `AND ADDR, REG` (R122). -/
  | andAR (a : Byte) (s : RegName)
  /-- 0x22 `AND REG, ADDR` (R123). -/
  | andRA (d : RegName) (a : Byte)
  /-- 0x23 `AND REG, REG` (R124). -/
  | andRR (d s : RegName)
  /-- 0x24 `OR REG, IMM` (R125). -/
  | orRI (d : RegName) (imm : Byte)
  /-- 0x25 `OR ADDR, REG` (R126). -/
  | orAR (a : Byte) (s : RegName)
  /-- 0x26 `OR REG, ADDR` (R127). -/
  | orRA (d : RegName) (a : Byte)
  /-- 0x27 `OR REG, REG` (R128). -/
  | orRR (d s : RegName)
  /-- 0x28 `XOR REG, IMM` (R129). -/
  | xorRI (d : RegName) (imm : Byte)
  /-- 0x29 `XOR ADDR, REG` (R130). -/
  | xorAR (a : Byte) (s : RegName)
  /-- 0x2A `XOR REG, ADDR` (R131). -/
  | xorRA (d : RegName) (a : Byte)
  /-- 0x2B `XOR REG, REG` (R132). -/
  | xorRR (d s : RegName)
  /-- 0x2C `NOT REG` (R133). -/
  | notR (r : RegName)
  /-- 0x2D `NOT ADDR` (R134). -/
  | notA (a : Byte)
  /-- 0x30 `ADD REG, IMM` (R141). -/
  | addRI (d : RegName) (imm : Byte)
  /-- 0x31 `ADD ADDR, REG` (R142). -/
  | addAR (a : Byte) (s : RegName)
  /-- 0x32 `ADD REG, ADDR` (R143). -/
  | addRA (d : RegName) (a : Byte)
  /-- 0x33 `ADD REG, REG` (R144). -/
  | addRR (d s : RegName)
  /-- 0x34 `SUB REG, IMM` (R145). -/
  | subRI (d : RegName) (imm : Byte)
  /-- 0x35 `SUB ADDR, REG` (R146). -/
  | subAR (a : Byte) (s : RegName)
  /-- 0x36 `SUB REG, ADDR` (R147). -/
  | subRA (d : RegName) (a : Byte)
  /-- 0x37 `SUB REG, REG` (R148). -/
  | subRR (d s : RegName)
  /-- 0x38 `INC REG` (R149). -/
  | incR (r : RegName)
  /-- 0x39 `INC ADDR` (R150). -/
  | incA (a : Byte)
  /-- 0x3A `DEC REG` (R151). -/
  | decR (r : RegName)
  /-- 0x3B `DEC ADDR` (R152). -/
  | decA (a : Byte)
  /-- 0x40 `JMP IMM` (R161). -/
  | jmpI (t : Byte)
  /-- 0x41 `JMP REG` (R162). -/
  | jmpR (r : RegName)
  /-- 0x42 `JIF IMM, IMM` (R163). -/
  | jifII (c t : Byte)
  /-- 0x43 `JIF IMM, REG` (R164). -/
  | jifIR (c : Byte) (r : RegName)
  /-- 0x44 `JNI IMM, IMM` (R165). -/
  | jniII (c t : Byte)
  /-- 0x45 `JNI IMM, REG` (R166). -/
  | jniIR (c : Byte) (r : RegName)
  /-- 0x50 `MIL REG, IMM` (R75). -/
  | milRI (p : RegName) (imm : Byte)
  /-- 0x51 `MIL REG, REG` (R76). -/
  | milRR (p s : RegName)
  /-- 0x52 `MIL REG, ADDR` (R77). -/
  | milRA (p : RegName) (a : Byte)
  /-- 0x53 `MIL ADDR, REG` (R78). -/
  | milAR (a : Byte) (s : RegName)
  /-- 0x54 `MFI REG, REG` (R79). -/
  | mfiRR (d p : RegName)
  /-- 0x55 `MFI REG, ADDR` (R80). -/
  | mfiRA (d : RegName) (a : Byte)
  /-- 0x56 `MFI ADDR, REG` (R81). -/
  | mfiAR (a : Byte) (p : RegName)
  /-- 0x57 `MFI ADDR, ADDR` (R82). -/
  | mfiAA (a1 a2 : Byte)
deriving DecidableEq, Repr

end Sys2Proof
end

