-- ==== Sys2Proof/Machine/Dispatch.lean ====
section
/-!
DEFINITION. Which meaning each instruction has, in the order of the opcode map (`30_encoding.md` R56).
-/
namespace Sys2Proof.Machine

def exec (i : Instr) (s : State) : Host.Outcome State Fault Refusal :=
  match i with
  | .disI imm => Sys2Proof.Machine.execDisI imm s
  | .disR src => Sys2Proof.Machine.execDisR src s
  | .disA a => Sys2Proof.Machine.execDisA a s
  | .inR d => Sys2Proof.Machine.execInR d s
  | .outII port v => Sys2Proof.Machine.execOutII port v s
  | .outIR port src => Sys2Proof.Machine.execOutIR port src s
  | .outIA port a => Sys2Proof.Machine.execOutIA port a s
  | .brk => Sys2Proof.Machine.execBrk s
  | .movRI d imm => Sys2Proof.Machine.execMovRI d imm s
  | .movAR a src => Sys2Proof.Machine.execMovAR a src s
  | .movRA d a => Sys2Proof.Machine.execMovRA d a s
  | .movRR d src => Sys2Proof.Machine.execMovRR d src s
  | .shw => Sys2Proof.Machine.execShw s
  | .clsI colour => Sys2Proof.Machine.execClsI colour s
  | .sblR r => Sys2Proof.Machine.execSblR r s
  | .sblA a => Sys2Proof.Machine.execSblA a s
  | .sbrR r => Sys2Proof.Machine.execSbrR r s
  | .sbrA a => Sys2Proof.Machine.execSbrA a s
  | .rblR r => Sys2Proof.Machine.execRblR r s
  | .rblA a => Sys2Proof.Machine.execRblA a s
  | .rbrR r => Sys2Proof.Machine.execRbrR r s
  | .rbrA a => Sys2Proof.Machine.execRbrA a s
  | .andRI d imm => Sys2Proof.Machine.execAndRI d imm s
  | .andAR a src => Sys2Proof.Machine.execAndAR a src s
  | .andRA d a => Sys2Proof.Machine.execAndRA d a s
  | .andRR d src => Sys2Proof.Machine.execAndRR d src s
  | .orRI d imm => Sys2Proof.Machine.execOrRI d imm s
  | .orAR a src => Sys2Proof.Machine.execOrAR a src s
  | .orRA d a => Sys2Proof.Machine.execOrRA d a s
  | .orRR d src => Sys2Proof.Machine.execOrRR d src s
  | .xorRI d imm => Sys2Proof.Machine.execXorRI d imm s
  | .xorAR a src => Sys2Proof.Machine.execXorAR a src s
  | .xorRA d a => Sys2Proof.Machine.execXorRA d a s
  | .xorRR d src => Sys2Proof.Machine.execXorRR d src s
  | .notR r => Sys2Proof.Machine.execNotR r s
  | .notA a => Sys2Proof.Machine.execNotA a s
  | .addRI d imm => Sys2Proof.Machine.execAddRI d imm s
  | .addAR a src => Sys2Proof.Machine.execAddAR a src s
  | .addRA d a => Sys2Proof.Machine.execAddRA d a s
  | .addRR d src => Sys2Proof.Machine.execAddRR d src s
  | .subRI d imm => Sys2Proof.Machine.execSubRI d imm s
  | .subAR a src => Sys2Proof.Machine.execSubAR a src s
  | .subRA d a => Sys2Proof.Machine.execSubRA d a s
  | .subRR d src => Sys2Proof.Machine.execSubRR d src s
  | .incR r => Sys2Proof.Machine.execIncR r s
  | .incA a => Sys2Proof.Machine.execIncA a s
  | .decR r => Sys2Proof.Machine.execDecR r s
  | .decA a => Sys2Proof.Machine.execDecA a s
  | .jmpI t => Sys2Proof.Machine.execJmpI t s
  | .jmpR r => Sys2Proof.Machine.execJmpR r s
  | .jifII c t => Sys2Proof.Machine.execJifII c t s
  | .jifIR c r => Sys2Proof.Machine.execJifIR c r s
  | .jniII c t => Sys2Proof.Machine.execJniII c t s
  | .jniIR c r => Sys2Proof.Machine.execJniIR c r s
  | .milRI p imm => Sys2Proof.Machine.execMilRI p imm s
  | .milRR p src => Sys2Proof.Machine.execMilRR p src s
  | .milRA p a => Sys2Proof.Machine.execMilRA p a s
  | .milAR a src => Sys2Proof.Machine.execMilAR a src s
  | .mfiRR d p => Sys2Proof.Machine.execMfiRR d p s
  | .mfiRA d a => Sys2Proof.Machine.execMfiRA d a s
  | .mfiAR a p => Sys2Proof.Machine.execMfiAR a p s
  | .mfiAA a1 a2 => Sys2Proof.Machine.execMfiAA a1 a2 s

end Sys2Proof.Machine
end

