-- ==== Sys2Proof/Assembly.lean ====
section
/-!
DEFINITION. The assembly language as far as the spec gives it (`30_encoding.md` R59, R60; `00_scope.md` R2): mnemonics,
operand types, statements, the written form of an operand, and which opcode a mnemonic and its operand types select.
No behaviour of the machine depends on this file. Log 22.
-/
namespace Sys2Proof

/-- The 24 mnemonics (`00_scope.md` R9). -/
inductive Mnemonic where
  | DIS | IN | OUT | BRK | MOV | SHW | CLS | SBL | SBR | RBL | RBR | AND
  | OR | XOR | NOT | ADD | SUB | INC | DEC | JMP | JIF | JNI | MIL | MFI
deriving DecidableEq, Repr

/-- The operand types that have an encoding (R59). A LABEL has none (R55). -/
inductive OperandType where
  | REG
  | IMM
  | ADDR
deriving DecidableEq, Repr

/-- An operand as written (R59), before any check of its range. -/
inductive AsmOperand where
  /-- `R[0-7]` -/
  | reg (n : Nat)
  /-- `$(value)` -/
  | imm (v : Nat)
  /-- `[value]` -/
  | addr (v : Nat)
  /-- `#[name]`, which the compiler resolves before the hardware sees it (R55). -/
  | label (name : List Char)
deriving DecidableEq, Repr

/-- "An assembly statement is a mnemonic followed by zero, one or two operands" (R59). -/
structure AsmStatement where
  mnemonic : Mnemonic
  operands : List AsmOperand
deriving DecidableEq, Repr

/-- The type of an operand; none for an unresolved label, of which the spec does not say what it stands in for (R61). -/
def AsmOperand.type? : AsmOperand → Option OperandType
  | .reg _ => some .REG
  | .imm _ => some .IMM
  | .addr _ => some .ADDR
  | .label _ => none

/-- The opcode map read from mnemonic and operand types to opcode (R56, R60): a pair not listed is no instruction. -/
def opcodeOf : Mnemonic → List OperandType → Option Byte
  | .DIS, [.IMM] => some 0x01
  | .DIS, [.REG] => some 0x02
  | .DIS, [.ADDR] => some 0x03
  | .IN, [.REG] => some 0x04
  | .OUT, [.IMM, .IMM] => some 0x05
  | .OUT, [.IMM, .REG] => some 0x06
  | .OUT, [.IMM, .ADDR] => some 0x07
  | .BRK, [] => some 0x0F
  | .MOV, [.REG, .IMM] => some 0x10
  | .MOV, [.ADDR, .REG] => some 0x11
  | .MOV, [.REG, .ADDR] => some 0x12
  | .MOV, [.REG, .REG] => some 0x13
  | .SHW, [] => some 0x14
  | .CLS, [.IMM] => some 0x15
  | .SBL, [.REG] => some 0x18
  | .SBL, [.ADDR] => some 0x19
  | .SBR, [.REG] => some 0x1A
  | .SBR, [.ADDR] => some 0x1B
  | .RBL, [.REG] => some 0x1C
  | .RBL, [.ADDR] => some 0x1D
  | .RBR, [.REG] => some 0x1E
  | .RBR, [.ADDR] => some 0x1F
  | .AND, [.REG, .IMM] => some 0x20
  | .AND, [.ADDR, .REG] => some 0x21
  | .AND, [.REG, .ADDR] => some 0x22
  | .AND, [.REG, .REG] => some 0x23
  | .OR, [.REG, .IMM] => some 0x24
  | .OR, [.ADDR, .REG] => some 0x25
  | .OR, [.REG, .ADDR] => some 0x26
  | .OR, [.REG, .REG] => some 0x27
  | .XOR, [.REG, .IMM] => some 0x28
  | .XOR, [.ADDR, .REG] => some 0x29
  | .XOR, [.REG, .ADDR] => some 0x2A
  | .XOR, [.REG, .REG] => some 0x2B
  | .NOT, [.REG] => some 0x2C
  | .NOT, [.ADDR] => some 0x2D
  | .ADD, [.REG, .IMM] => some 0x30
  | .ADD, [.ADDR, .REG] => some 0x31
  | .ADD, [.REG, .ADDR] => some 0x32
  | .ADD, [.REG, .REG] => some 0x33
  | .SUB, [.REG, .IMM] => some 0x34
  | .SUB, [.ADDR, .REG] => some 0x35
  | .SUB, [.REG, .ADDR] => some 0x36
  | .SUB, [.REG, .REG] => some 0x37
  | .INC, [.REG] => some 0x38
  | .INC, [.ADDR] => some 0x39
  | .DEC, [.REG] => some 0x3A
  | .DEC, [.ADDR] => some 0x3B
  | .JMP, [.IMM] => some 0x40
  | .JMP, [.REG] => some 0x41
  | .JIF, [.IMM, .IMM] => some 0x42
  | .JIF, [.IMM, .REG] => some 0x43
  | .JNI, [.IMM, .IMM] => some 0x44
  | .JNI, [.IMM, .REG] => some 0x45
  | .MIL, [.REG, .IMM] => some 0x50
  | .MIL, [.REG, .REG] => some 0x51
  | .MIL, [.REG, .ADDR] => some 0x52
  | .MIL, [.ADDR, .REG] => some 0x53
  | .MFI, [.REG, .REG] => some 0x54
  | .MFI, [.REG, .ADDR] => some 0x55
  | .MFI, [.ADDR, .REG] => some 0x56
  | .MFI, [.ADDR, .ADDR] => some 0x57
  | _, _ => none

/-- The statement that writes an instruction (R56, R59). -/
def Instr.statement : Instr → AsmStatement
  | .disI imm => ⟨.DIS, [.imm imm.toNat]⟩
  | .disR s => ⟨.DIS, [.reg s.val]⟩
  | .disA a => ⟨.DIS, [.addr a.toNat]⟩
  | .inR d => ⟨.IN, [.reg d.val]⟩
  | .outII port v => ⟨.OUT, [.imm port.toNat, .imm v.toNat]⟩
  | .outIR port s => ⟨.OUT, [.imm port.toNat, .reg s.val]⟩
  | .outIA port a => ⟨.OUT, [.imm port.toNat, .addr a.toNat]⟩
  | .brk => ⟨.BRK, []⟩
  | .movRI d imm => ⟨.MOV, [.reg d.val, .imm imm.toNat]⟩
  | .movAR a s => ⟨.MOV, [.addr a.toNat, .reg s.val]⟩
  | .movRA d a => ⟨.MOV, [.reg d.val, .addr a.toNat]⟩
  | .movRR d s => ⟨.MOV, [.reg d.val, .reg s.val]⟩
  | .shw => ⟨.SHW, []⟩
  | .clsI colour => ⟨.CLS, [.imm colour.toNat]⟩
  | .sblR r => ⟨.SBL, [.reg r.val]⟩
  | .sblA a => ⟨.SBL, [.addr a.toNat]⟩
  | .sbrR r => ⟨.SBR, [.reg r.val]⟩
  | .sbrA a => ⟨.SBR, [.addr a.toNat]⟩
  | .rblR r => ⟨.RBL, [.reg r.val]⟩
  | .rblA a => ⟨.RBL, [.addr a.toNat]⟩
  | .rbrR r => ⟨.RBR, [.reg r.val]⟩
  | .rbrA a => ⟨.RBR, [.addr a.toNat]⟩
  | .andRI d imm => ⟨.AND, [.reg d.val, .imm imm.toNat]⟩
  | .andAR a s => ⟨.AND, [.addr a.toNat, .reg s.val]⟩
  | .andRA d a => ⟨.AND, [.reg d.val, .addr a.toNat]⟩
  | .andRR d s => ⟨.AND, [.reg d.val, .reg s.val]⟩
  | .orRI d imm => ⟨.OR, [.reg d.val, .imm imm.toNat]⟩
  | .orAR a s => ⟨.OR, [.addr a.toNat, .reg s.val]⟩
  | .orRA d a => ⟨.OR, [.reg d.val, .addr a.toNat]⟩
  | .orRR d s => ⟨.OR, [.reg d.val, .reg s.val]⟩
  | .xorRI d imm => ⟨.XOR, [.reg d.val, .imm imm.toNat]⟩
  | .xorAR a s => ⟨.XOR, [.addr a.toNat, .reg s.val]⟩
  | .xorRA d a => ⟨.XOR, [.reg d.val, .addr a.toNat]⟩
  | .xorRR d s => ⟨.XOR, [.reg d.val, .reg s.val]⟩
  | .notR r => ⟨.NOT, [.reg r.val]⟩
  | .notA a => ⟨.NOT, [.addr a.toNat]⟩
  | .addRI d imm => ⟨.ADD, [.reg d.val, .imm imm.toNat]⟩
  | .addAR a s => ⟨.ADD, [.addr a.toNat, .reg s.val]⟩
  | .addRA d a => ⟨.ADD, [.reg d.val, .addr a.toNat]⟩
  | .addRR d s => ⟨.ADD, [.reg d.val, .reg s.val]⟩
  | .subRI d imm => ⟨.SUB, [.reg d.val, .imm imm.toNat]⟩
  | .subAR a s => ⟨.SUB, [.addr a.toNat, .reg s.val]⟩
  | .subRA d a => ⟨.SUB, [.reg d.val, .addr a.toNat]⟩
  | .subRR d s => ⟨.SUB, [.reg d.val, .reg s.val]⟩
  | .incR r => ⟨.INC, [.reg r.val]⟩
  | .incA a => ⟨.INC, [.addr a.toNat]⟩
  | .decR r => ⟨.DEC, [.reg r.val]⟩
  | .decA a => ⟨.DEC, [.addr a.toNat]⟩
  | .jmpI t => ⟨.JMP, [.imm t.toNat]⟩
  | .jmpR r => ⟨.JMP, [.reg r.val]⟩
  | .jifII c t => ⟨.JIF, [.imm c.toNat, .imm t.toNat]⟩
  | .jifIR c r => ⟨.JIF, [.imm c.toNat, .reg r.val]⟩
  | .jniII c t => ⟨.JNI, [.imm c.toNat, .imm t.toNat]⟩
  | .jniIR c r => ⟨.JNI, [.imm c.toNat, .reg r.val]⟩
  | .milRI p imm => ⟨.MIL, [.reg p.val, .imm imm.toNat]⟩
  | .milRR p s => ⟨.MIL, [.reg p.val, .reg s.val]⟩
  | .milRA p a => ⟨.MIL, [.reg p.val, .addr a.toNat]⟩
  | .milAR a s => ⟨.MIL, [.addr a.toNat, .reg s.val]⟩
  | .mfiRR d p => ⟨.MFI, [.reg d.val, .reg p.val]⟩
  | .mfiRA d a => ⟨.MFI, [.reg d.val, .addr a.toNat]⟩
  | .mfiAR a p => ⟨.MFI, [.addr a.toNat, .reg p.val]⟩
  | .mfiAA a1 a2 => ⟨.MFI, [.addr a1.toNat, .addr a2.toNat]⟩

/-! ## The written form of a statement (R59) -/

/-- The value of a digit in a base of at most 16. DESIGN CHOICE (log 22): hexadecimal digits in either case, since R61
leaves case open. -/
def digitValue (base : Nat) (c : Char) : Option Nat :=
  let n := c.toNat
  let v := if 48 ≤ n ∧ n ≤ 57 then n - 48 else if 65 ≤ n ∧ n ≤ 70 then n - 55 else if 97 ≤ n ∧ n ≤ 102 then n - 87 else 16
  if v < base then some v else none

/-- The number a row of digits writes, after `acc`. -/
def digitsFrom (base : Nat) : Nat → List Char → Option Nat
  | acc, [] => some acc
  | acc, c :: cs =>
    match digitValue base c with
    | some v => digitsFrom base (base * acc + v) cs
    | none => none

/-- A value "in decimal, hexadecimal (`0x...`), or binary (`0b...`)" (R59). DESIGN CHOICE
(log 22): the letter of the notation in lower case as R59 writes it, any number of leading zeros, no sign. -/
def numberOf : List Char → Option Nat
  | '0' :: 'x' :: c :: cs => digitsFrom 16 0 (c :: cs)
  | '0' :: 'b' :: c :: cs => digitsFrom 2 0 (c :: cs)
  | c :: cs => digitsFrom 10 0 (c :: cs)
  | [] => none

/-- What stands before the closing mark `c`, where the text ends in it. -/
def upToClose (c : Char) (cs : List Char) : Option (List Char) :=
  if cs.getLast? = some c then some cs.dropLast else none

/-- Read one operand; the punctuation is literal (R59; D19). DESIGN CHOICE (log 22): R in capitals, no space anywhere in
it but in the name of a label, and that name any text that is not empty. (A name with a comma is never read within a
statement: see `commaPieces`.) -/
def operandOf : List Char → Option AsmOperand
  | ['R', c] => (digitValue 8 c).map .reg
  | '$' :: '(' :: cs => ((upToClose ')' cs).bind numberOf).map .imm
  | '[' :: cs => ((upToClose ']' cs).bind numberOf).map .addr
  | '#' :: '[' :: cs => ((upToClose ']' cs).bind fun name => if name = [] then none else some name).map .label
  | _ => none

/-- The mnemonics with their letters. -/
def mnemonicNames : List (List Char × Mnemonic) :=
  [(['D', 'I', 'S'], .DIS),
   (['I', 'N'], .IN),
   (['O', 'U', 'T'], .OUT),
   (['B', 'R', 'K'], .BRK),
   (['M', 'O', 'V'], .MOV),
   (['S', 'H', 'W'], .SHW),
   (['C', 'L', 'S'], .CLS),
   (['S', 'B', 'L'], .SBL),
   (['S', 'B', 'R'], .SBR),
   (['R', 'B', 'L'], .RBL),
   (['R', 'B', 'R'], .RBR),
   (['A', 'N', 'D'], .AND),
   (['O', 'R'], .OR),
   (['X', 'O', 'R'], .XOR),
   (['N', 'O', 'T'], .NOT),
   (['A', 'D', 'D'], .ADD),
   (['S', 'U', 'B'], .SUB),
   (['I', 'N', 'C'], .INC),
   (['D', 'E', 'C'], .DEC),
   (['J', 'M', 'P'], .JMP),
   (['J', 'I', 'F'], .JIF),
   (['J', 'N', 'I'], .JNI),
   (['M', 'I', 'L'], .MIL),
   (['M', 'F', 'I'], .MFI)]

/-- A text without the spaces at its two ends. -/
def trimSpaces (cs : List Char) : List Char :=
  ((cs.dropWhile (· = ' ')).reverse.dropWhile (· = ' ')).reverse

/-- The pieces between commas, each without the spaces at its ends. DESIGN CHOICE (log 22), since whitespace is open
(`91_not_in_source.md` N14): a space inside a piece stays in it, so that `operandOf` refuses `R 2` and `$(1 2)`. DESIGN CHOICE (log 22), since the
spec does not say what a label's name may hold (R61): every comma separates, one inside `#[a,b]` too, so that a
statement with a comma in a label's name is refused. -/
def commaPieces (cs : List Char) : List (List Char) :=
  let step (c : Char) (ps : List (List Char)) : List (List Char) :=
    if c = ',' then [] :: ps
    else match ps with
      | p :: ps => (c :: p) :: ps
      | [] => [[c]]
  (cs.foldr step [[]]).map trimSpaces

/-- Read one statement: a mnemonic, then its operands separated by a comma (R59). DESIGN CHOICE (log 22): mnemonics in
capitals at the start of the text, at least one space before the operands, nothing after a mnemonic without operands. -/
def statementOf (cs : List Char) : Option AsmStatement :=
  match mnemonicNames.lookup (cs.takeWhile (· ≠ ' ')), cs.dropWhile (· ≠ ' ') with
  | some m, [] => some ⟨m, []⟩
  | some m, _ :: rest => ((commaPieces rest).mapM operandOf).map (AsmStatement.mk m)
  | none, _ => none

end Sys2Proof
end

