-- ==== Sys2Proof/WellFormed.lean ====
section
/-!
DEFINITION. Which statements are instructions (`30_encoding.md` R54, R55, R59, R60). An `Instr` is well-formed by its
type (its registers are register names, its other operands bytes), which `Laws/PerInstr.lean` shows of each.
-/
namespace Sys2Proof

/-- The mnemonic has a form with these operand types (R60: "a pair not in the table ... is not an instruction"). A
statement with an unresolved label, or with more than two operands, has none. -/
def AsmStatement.hasForm (st : AsmStatement) : Bool :=
  match st.operands.mapM AsmOperand.type? with
  | some ts => (opcodeOf st.mnemonic ts).isSome
  | none => false

/-- The operand's value can stand in its operand byte: a register number 0 to 7 (R54), an immediate or an offset of
8 bits (R55). -/
def AsmOperand.inRange : AsmOperand → Bool
  | .reg n => n < 8
  | .imm v => v < 256
  | .addr v => v < 256
  | .label _ => false

/-- A statement that is an instruction: the form exists and every operand is in range. -/
def AsmStatement.wellFormed (st : AsmStatement) : Bool :=
  st.hasForm && st.operands.all AsmOperand.inRange

/-- An instruction is well-formed when the statement that writes it is. -/
def Instr.wellFormed (i : Instr) : Bool :=
  i.statement.wellFormed

end Sys2Proof
end

