-- ==== Sys2Proof/Decode.lean ====
section
/-!
DEFINITION. The decoder, total on any bytes and rejecting by name, then the encoder and the assembler
(`30_encoding.md` R50 to R58, R60).
-/
namespace Sys2Proof

/-- Why bytes are no instruction (`60_exceptions.md` R182, R183). `truncated` is said only of a list of bytes that ends
before its instruction does; a fetch reads as many bytes as the opcode needs, so no step meets it. -/
inductive DecodeError where
  | illegalOpcode (opcode : Byte)
  | illegalRegister (opcode : Byte) (k : Slot) (byte : Byte)
  | truncated
deriving DecidableEq, Repr

/-- The twelve formats (R53), each with the instruction it builds from its operands. -/
inductive Layout where
  | N (i : Instr)
  | R (mk : RegName → Instr)
  | I (mk : Byte → Instr)
  | A (mk : Byte → Instr)
  | RI (mk : RegName → Byte → Instr)
  | AR (mk : Byte → RegName → Instr)
  | RA (mk : RegName → Byte → Instr)
  | RR (mk : RegName → RegName → Instr)
  | II (mk : Byte → Byte → Instr)
  | IR (mk : Byte → RegName → Instr)
  | IA (mk : Byte → Byte → Instr)
  | AA (mk : Byte → Byte → Instr)

/-- The operand types of a format, in the order written (R53). -/
def Layout.operandTypes : Layout → List OperandType
  | .N _ => []
  | .R _ => [.REG]
  | .I _ => [.IMM]
  | .A _ => [.ADDR]
  | .RI _ => [.REG, .IMM]
  | .AR _ => [.ADDR, .REG]
  | .RA _ => [.REG, .ADDR]
  | .RR _ => [.REG, .REG]
  | .II _ => [.IMM, .IMM]
  | .IR _ => [.IMM, .REG]
  | .IA _ => [.IMM, .ADDR]
  | .AA _ => [.ADDR, .ADDR]

/-- The rows of the opcode map: MOV, MIL and MFI (`40_data_transfer.md`). -/
def transferRows : List (Byte × Layout) :=
  [(0x10, .RI .movRI),
   (0x11, .AR .movAR),
   (0x12, .RA .movRA),
   (0x13, .RR .movRR),
   (0x50, .RI .milRI),
   (0x51, .RR .milRR),
   (0x52, .RA .milRA),
   (0x53, .AR .milAR),
   (0x54, .RR .mfiRR),
   (0x55, .RA .mfiRA),
   (0x56, .AR .mfiAR),
   (0x57, .AA .mfiAA)]

/-- The rows of the opcode map: I/O and system (`41_io_system.md`). -/
def ioRows : List (Byte × Layout) :=
  [(0x01, .I .disI),
   (0x02, .R .disR),
   (0x03, .A .disA),
   (0x04, .R .inR),
   (0x05, .II .outII),
   (0x06, .IR .outIR),
   (0x07, .IA .outIA),
   (0x0F, .N .brk),
   (0x14, .N .shw),
   (0x15, .I .clsI)]

/-- The rows of the opcode map: shifts and rotates (`42_shift_rotate.md`). -/
def shiftRows : List (Byte × Layout) :=
  [(0x18, .R .sblR),
   (0x19, .A .sblA),
   (0x1A, .R .sbrR),
   (0x1B, .A .sbrA),
   (0x1C, .R .rblR),
   (0x1D, .A .rblA),
   (0x1E, .R .rbrR),
   (0x1F, .A .rbrA)]

/-- The rows of the opcode map: logical (`43_logical.md`). -/
def logicalRows : List (Byte × Layout) :=
  [(0x20, .RI .andRI),
   (0x21, .AR .andAR),
   (0x22, .RA .andRA),
   (0x23, .RR .andRR),
   (0x24, .RI .orRI),
   (0x25, .AR .orAR),
   (0x26, .RA .orRA),
   (0x27, .RR .orRR),
   (0x28, .RI .xorRI),
   (0x29, .AR .xorAR),
   (0x2A, .RA .xorRA),
   (0x2B, .RR .xorRR),
   (0x2C, .R .notR),
   (0x2D, .A .notA)]

/-- The rows of the opcode map: arithmetic (`44_arithmetic.md`). -/
def arithmeticRows : List (Byte × Layout) :=
  [(0x30, .RI .addRI),
   (0x31, .AR .addAR),
   (0x32, .RA .addRA),
   (0x33, .RR .addRR),
   (0x34, .RI .subRI),
   (0x35, .AR .subAR),
   (0x36, .RA .subRA),
   (0x37, .RR .subRR),
   (0x38, .R .incR),
   (0x39, .A .incA),
   (0x3A, .R .decR),
   (0x3B, .A .decA)]

/-- The rows of the opcode map: control flow (`45_control_flow.md`). -/
def controlRows : List (Byte × Layout) :=
  [(0x40, .I .jmpI),
   (0x41, .R .jmpR),
   (0x42, .II .jifII),
   (0x43, .IR .jifIR),
   (0x44, .II .jniII),
   (0x45, .IR .jniIR)]

/-- The opcode map (R56). An opcode byte that has no row here is unassigned (R58). -/
def opcodeMap : List (Byte × Layout) :=
  ioRows ++ transferRows ++ shiftRows ++ logicalRows ++ arithmeticRows ++ controlRows

/-- The format of an opcode byte, none where it is unassigned. -/
def layoutOf (op : Byte) : Option Layout :=
  opcodeMap.lookup op

/-- How many operand bytes follow an opcode byte: one per operand (R50, R52); none after an unassigned opcode, which is
rejected before any operand byte is interpreted (R182). -/
def operandCount (op : Byte) : Nat :=
  match layoutOf op with
  | some l => l.operandTypes.length
  | none => 0

/-- A REG operand byte: 0 to 7 name R0 to R7, and no other byte names a register (R54): it is not masked. -/
def regOperand (op : Byte) (k : Slot) (b : Byte) : Except DecodeError RegName :=
  if h : b.toNat < 8 then .ok ⟨b.toNat, h⟩ else .error (.illegalRegister op k b)

/-- Read the operand bytes of a format, the first operand before the second (R52; R184). -/
def decodeOperands (op : Byte) : Layout → List Byte → Except DecodeError (Instr × List Byte)
  | .N i, rest => .ok (i, rest)
  | .R mk, b :: rest => (regOperand op .op1 b).map fun r => (mk r, rest)
  | .I mk, b :: rest => .ok (mk b, rest)
  | .A mk, b :: rest => .ok (mk b, rest)
  | .RI mk, b :: c :: rest => (regOperand op .op1 b).map fun r => (mk r c, rest)
  | .AR mk, b :: c :: rest => (regOperand op .op2 c).map fun r => (mk b r, rest)
  | .RA mk, b :: c :: rest => (regOperand op .op1 b).map fun r => (mk r c, rest)
  | .RR mk, b :: c :: rest =>
    match regOperand op .op1 b with
    | .ok d => (regOperand op .op2 c).map fun s => (mk d s, rest)
    | .error e => .error e
  | .II mk, b :: c :: rest => .ok (mk b c, rest)
  | .IR mk, b :: c :: rest => (regOperand op .op2 c).map fun r => (mk b r, rest)
  | .IA mk, b :: c :: rest => .ok (mk b c, rest)
  | .AA mk, b :: c :: rest => .ok (mk b c, rest)
  | _, _ => .error .truncated

/-- Decode the instruction that a list of bytes begins with, and give the bytes after it (R50, R56). -/
def decode : List Byte → Except DecodeError (Instr × List Byte)
  | [] => .error .truncated
  | op :: rest =>
    match layoutOf op with
    | some l => decodeOperands op l rest
    | none => .error (.illegalOpcode op)

/-- The three bytes of a number, the least significant first: the bytes of an instruction as
`spec/opcode_table.json` numbers its bits, first word at the lowest address (R39, R52). -/
def tableBytes (nbits w : Nat) : List Byte :=
  let v := w % 2 ^ nbits
  [BitVec.ofNat 8 v, BitVec.ofNat 8 (v / 256), BitVec.ofNat 8 (v / 65536)]

/-- The instruction the decoder reads from the bits `w` of an opcode-table row; every bit above `nbits` is 0. -/
def decodeTableWord (nbits w : Nat) : Option Instr :=
  match decode (tableBytes nbits w) with
  | .ok (i, _) => some i
  | .error _ => none

/-! ## The encoder -/

/-- The operand byte of a register: its number (R54). -/
def regByte (r : RegName) : Byte :=
  BitVec.ofNat 8 r.val

/-- The bytes of an instruction, at ascending addresses (R39, R52, R53, R56). -/
def encode : Instr → List Byte
  | .disI imm => [0x01, imm]
  | .disR s => [0x02, regByte s]
  | .disA a => [0x03, a]
  | .inR d => [0x04, regByte d]
  | .outII port v => [0x05, port, v]
  | .outIR port s => [0x06, port, regByte s]
  | .outIA port a => [0x07, port, a]
  | .brk => [0x0F]
  | .movRI d imm => [0x10, regByte d, imm]
  | .movAR a s => [0x11, a, regByte s]
  | .movRA d a => [0x12, regByte d, a]
  | .movRR d s => [0x13, regByte d, regByte s]
  | .shw => [0x14]
  | .clsI colour => [0x15, colour]
  | .sblR r => [0x18, regByte r]
  | .sblA a => [0x19, a]
  | .sbrR r => [0x1A, regByte r]
  | .sbrA a => [0x1B, a]
  | .rblR r => [0x1C, regByte r]
  | .rblA a => [0x1D, a]
  | .rbrR r => [0x1E, regByte r]
  | .rbrA a => [0x1F, a]
  | .andRI d imm => [0x20, regByte d, imm]
  | .andAR a s => [0x21, a, regByte s]
  | .andRA d a => [0x22, regByte d, a]
  | .andRR d s => [0x23, regByte d, regByte s]
  | .orRI d imm => [0x24, regByte d, imm]
  | .orAR a s => [0x25, a, regByte s]
  | .orRA d a => [0x26, regByte d, a]
  | .orRR d s => [0x27, regByte d, regByte s]
  | .xorRI d imm => [0x28, regByte d, imm]
  | .xorAR a s => [0x29, a, regByte s]
  | .xorRA d a => [0x2A, regByte d, a]
  | .xorRR d s => [0x2B, regByte d, regByte s]
  | .notR r => [0x2C, regByte r]
  | .notA a => [0x2D, a]
  | .addRI d imm => [0x30, regByte d, imm]
  | .addAR a s => [0x31, a, regByte s]
  | .addRA d a => [0x32, regByte d, a]
  | .addRR d s => [0x33, regByte d, regByte s]
  | .subRI d imm => [0x34, regByte d, imm]
  | .subAR a s => [0x35, a, regByte s]
  | .subRA d a => [0x36, regByte d, a]
  | .subRR d s => [0x37, regByte d, regByte s]
  | .incR r => [0x38, regByte r]
  | .incA a => [0x39, a]
  | .decR r => [0x3A, regByte r]
  | .decA a => [0x3B, a]
  | .jmpI t => [0x40, t]
  | .jmpR r => [0x41, regByte r]
  | .jifII c t => [0x42, c, t]
  | .jifIR c r => [0x43, c, regByte r]
  | .jniII c t => [0x44, c, t]
  | .jniIR c r => [0x45, c, regByte r]
  | .milRI p imm => [0x50, regByte p, imm]
  | .milRR p s => [0x51, regByte p, regByte s]
  | .milRA p a => [0x52, regByte p, a]
  | .milAR a s => [0x53, a, regByte s]
  | .mfiRR d p => [0x54, regByte d, regByte p]
  | .mfiRA d a => [0x55, regByte d, a]
  | .mfiAR a p => [0x56, a, regByte p]
  | .mfiAA a1 a2 => [0x57, a1, a2]

/-- The length of an instruction in bytes (R50). -/
def Instr.length (i : Instr) : Nat :=
  (encode i).length

/-! ## The assembler -/

/-- The byte an operand in range is written as (R54, R55). -/
def AsmOperand.byte : AsmOperand → Byte
  | .reg n => BitVec.ofNat 8 n
  | .imm v => BitVec.ofNat 8 v
  | .addr v => BitVec.ofNat 8 v
  | .label _ => 0

/-- "The assembler picks the opcode from the mnemonic and the operand types" (R60); the operand bytes follow in the
order written (R52). None where the statement is no instruction. -/
def assemble (st : AsmStatement) : Option (List Byte) :=
  if st.wellFormed then
    match st.operands.mapM AsmOperand.type? with
    | some ts => (opcodeOf st.mnemonic ts).map fun op => op :: st.operands.map AsmOperand.byte
    | none => none
  else none

end Sys2Proof
end

