-- ==== Sys2Proof/Machine/Fetch.lean ====
section
/-!
DEFINITION. Fetching an instruction's bytes (`10_state.md` R17), and turning what the decoder rejects into a fault
(`60_exceptions.md` R181 to R183).
-/
namespace Sys2Proof.Machine

/-- Read `n` bytes at ascending addresses modulo 4096, through `MemRead`: a fetch from 0x080 reads the input
controller (`20_memory.md` R35). -/
def fetchBytes : Nat → Addr → State → List Byte × State
  | 0, _, s => ([], s)
  | n + 1, a, s =>
    let b := s.memRead a
    let r := fetchBytes n (a + 1) b.2
    (b.1 :: r.1, r.2)

/-- Fetch the opcode byte at the pc and then as many operand bytes as it has operands (R17); the addresses are absolute
and do not pass through PAGE. The state after it differs only in the number of draws made. -/
def fetch (s : State) : List Byte × State :=
  let op := s.memRead s.pc
  let operands := fetchBytes (operandCount op.1) (s.pc + 1) op.2
  (op.1 :: operands.1, operands.2)

/-- The fault a rejected instruction at address `pc` raises (R182, R183). A fetch is never truncated; that case is
given the fault of an opcode byte 0x00 only to be total. -/
def faultOf (pc : Addr) : DecodeError → Fault
  | .illegalOpcode op => .illegalOpcode pc op
  | .illegalRegister op k b => .illegalRegister pc op k b
  | .truncated => .illegalOpcode pc 0

/-- A rejected instruction changes nothing but the run state: the pc still holds the address of its opcode byte
(R181). -/
def rejected (e : DecodeError) (s : State) : Host.Outcome State Fault Refusal :=
  .next (s.raise (faultOf s.pc e))

end Sys2Proof.Machine
end

