-- ==== Sys2Proof/Machine/Step.lean ====
section
/-!
DEFINITION. One step of the machine: fetch, decode, execute (`00_scope.md` R7); and where the host puts one instruction
so that the next step runs it.
-/
namespace Sys2Proof.Machine

/-- A running machine fetches and decodes the instruction at the pc and executes it, or enters the faulted state when
the bytes are no instruction (R7; `60_exceptions.md` R181). A stopped machine executes nothing (`10_state.md` R20). -/
def step (s : State) : Host.Outcome State Fault Refusal :=
  match s.run with
  | .running =>
    match decode (fetch s).1 with
    | .ok (i, _) => exec i (fetch s).2
    | .error e => rejected e s
  | .halted => afterHalt s
  | .faulted f => afterFault f

/-- The machine with the instruction whose bits are `w` placed at the pc, and running, so that the next step fetches and
runs it (log 5). A byte that would lie at 0x080 cannot be placed: that address is the input controller's. -/
def State.withFetchWord (s : State) (nbits w : Nat) : State :=
  { s.load s.pc (tableBytes nbits w) with run := .running }

end Sys2Proof.Machine
end

