-- ==== Sys2Proof/Safety.lean ====
section
/-!
DEFINITION. What claims about the machine are stated in: the invariant, how a run ends, what an instruction writes, and
the state an instruction leaves, field by field. These say what the rules of the spec say in their own words and cite no
operation that a meaning is written with, but for `State.ea`, `State.getReg` and `State.byteAt`, and in
`Instr.storesTo` the operand forms that name a destination in memory.
-/
namespace Sys2Proof.Machine

/-! ## The invariant and the end of a run -/

/-- The operand position as an index into the operand types of a format. -/
def slotIndex : Slot → Nat
  | .op1 => 0
  | .op2 => 1

/-- A fault reason is one that decoding at address `pc` can give (`60_exceptions.md` R182, R183). -/
def Fault.justified (pc : Addr) : Fault → Prop
  | .illegalOpcode p op => p = pc ∧ layoutOf op = none
  | .illegalRegister p op k b =>
    p = pc ∧ 7 < b.toNat ∧ ∃ l, layoutOf op = some l ∧ l.operandTypes[slotIndex k]? = some .REG

/-- What every state of a run meets: the memory is canonical and has no byte at 0x080, a faulted machine still has its
pc at the opcode byte of a rejected instruction, and every `Show` event holds 128 bytes. -/
structure State.Inv (s : State) : Prop where
  memory : s.mem.wf
  reason : ∀ f, s.run = .faulted f → f.justified s.pc
  shown : ∀ bytes, Event.show bytes ∈ s.trace → bytes.length = 128

/-- The run from `s` ends in `Halted`: the way a correct program ends (`70_reset_and_hazards.md` R205). -/
def State.endsHalted (s : State) : Prop :=
  ∃ k t, Host.Core.run Sys2Proof.core k s = .next t ∧ t.run = .halted

/-- The run from `s` ends in `Faulted`: it has gone wrong (R205; `60_exceptions.md` R181). -/
def State.endsFaulted (s : State) : Prop :=
  ∃ k t f, Host.Core.run Sys2Proof.core k s = .next t ∧ t.run = .faulted f

end Sys2Proof.Machine

namespace Sys2Proof

/-! ## Which instructions write what -/

/-- The instruction writes ZF (`10_state.md` R16). -/
def Instr.writesZF (i : Instr) : Bool :=
  match i.statement.mnemonic with
  | .DIS | .OUT | .BRK | .SHW | .CLS | .JMP | .JIF | .JNI => false
  | _ => true

/-- The instruction is a jump: the only kind that writes the pc otherwise than by going on (R18). -/
def Instr.isJump (i : Instr) : Bool :=
  match i.statement.mnemonic with
  | .JMP | .JIF | .JNI => true
  | _ => false

/-- The number of the register that is the instruction's destination, where it has one: its first operand, in an
instruction that writes its first operand (`40_data_transfer.md` R70, `43_logical.md` R120, `44_arithmetic.md` R140). The
first operand of MIL is a pointer and is not written. -/
def Instr.destination (i : Instr) : Option Nat :=
  match i.statement.mnemonic, i.statement.operands with
  | .MIL, _ => none
  | _, .reg n :: _ => if i.writesZF then some n else none
  | _, _ => none

end Sys2Proof

namespace Sys2Proof.Machine

/-! ## How the bytes of a format decode (`30_encoding.md` R52 to R55)

`R` stands for a REG operand byte, `B` for an IMM or ADDR operand byte. Each says what every list of bytes with that
opcode decodes to; a REG byte greater than 7 is rejected, the first operand before the second. -/

/-- Format N: the opcode alone. -/
def DecodesN (op : Byte) (i : Instr) : Prop :=
  ∀ rest, decode (op :: rest) = .ok (i, rest)

/-- Formats I and A. -/
def DecodesB (op : Byte) (mk : Byte → Instr) : Prop :=
  ∀ b rest, decode (op :: b :: rest) = .ok (mk b, rest)

/-- Format R. -/
def DecodesR (op : Byte) (mk : RegName → Instr) : Prop :=
  (∀ (r : RegName) rest, decode (op :: BitVec.ofNat 8 r.val :: rest) = .ok (mk r, rest)) ∧
  ∀ b rest, 7 < b.toNat → decode (op :: b :: rest) = .error (.illegalRegister op .op1 b)

/-- Formats RI and RA. -/
def DecodesRB (op : Byte) (mk : RegName → Byte → Instr) : Prop :=
  (∀ (r : RegName) c rest, decode (op :: BitVec.ofNat 8 r.val :: c :: rest) = .ok (mk r c, rest)) ∧
  ∀ b c rest, 7 < b.toNat → decode (op :: b :: c :: rest) = .error (.illegalRegister op .op1 b)

/-- Formats AR and IR. -/
def DecodesBR (op : Byte) (mk : Byte → RegName → Instr) : Prop :=
  (∀ b (r : RegName) rest, decode (op :: b :: BitVec.ofNat 8 r.val :: rest) = .ok (mk b r, rest)) ∧
  ∀ b c rest, 7 < c.toNat → decode (op :: b :: c :: rest) = .error (.illegalRegister op .op2 c)

/-- Format RR. -/
def DecodesRR (op : Byte) (mk : RegName → RegName → Instr) : Prop :=
  (∀ (r q : RegName) rest,
    decode (op :: BitVec.ofNat 8 r.val :: BitVec.ofNat 8 q.val :: rest) = .ok (mk r q, rest)) ∧
  (∀ b c rest, 7 < b.toNat → decode (op :: b :: c :: rest) = .error (.illegalRegister op .op1 b)) ∧
  ∀ (r : RegName) c rest, 7 < c.toNat →
    decode (op :: BitVec.ofNat 8 r.val :: c :: rest) = .error (.illegalRegister op .op2 c)

/-- Formats II, IA and AA. -/
def DecodesBB (op : Byte) (mk : Byte → Byte → Instr) : Prop :=
  ∀ b c rest, decode (op :: b :: c :: rest) = .ok (mk b c, rest)

/-! ## What a read sees (`20_memory.md` R33, R35) -/

/-- How many draws of the input controller one read of an address makes. -/
def deviceReads (a : Addr) : Nat :=
  if a = 0x080 then 1 else 0

/-- The byte a read of an address sees, when the instruction has made `k` draws before it: the stored byte, or at 0x080
what the input controller presents at that read. -/
def State.sees (s : State) (a : Addr) (k : Nat) : Byte :=
  if a = 0x080 then Config.input (s.inputReads + k) else s.byteAt a

/-- How many of the `n` addresses from `a` on, modulo 4096, are the input controller's. -/
def deviceReadsFrom (a : Addr) : Nat → Nat
  | 0 => 0
  | n + 1 => deviceReadsFrom a n + deviceReads (a + BitVec.ofNat 12 n)

/-! ## Where an instruction stores (`20_memory.md` R32) -/

/-- The address of a place in memory. -/
def Place.address? : Place → Option Addr
  | .reg _ => none
  | .mem a => some a

end Sys2Proof.Machine

namespace Sys2Proof
open Sys2Proof.Machine

/-- The address an instruction stores to from a state, where its destination is memory: directly, through a register
(`MIL` 0x50 to 0x52) or through a byte of memory (`MIL` 0x53). Each is the operand form the meaning names its destination
with. None for a form that stores nothing. -/
def Instr.storesTo (i : Instr) (s : State) : Option Addr :=
  match i with
  | .movAR a _ | .andAR a _ | .orAR a _ | .xorAR a _ | .addAR a _ | .subAR a _ => (direct a s).address?
  | .sblA a | .sbrA a | .rblA a | .rbrA a | .notA a | .incA a | .decA a => (direct a s).address?
  | .mfiAR a _ | .mfiAA a _ => (direct a s).address?
  | .milRI p _ | .milRR p _ | .milRA p _ => (viaReg p s).address?
  | .milAR a _ => (viaMem a s).1.address?
  | .disI _ | .disR _ | .disA _ | .inR _ | .outII _ _ | .outIR _ _ | .outIA _ _ | .brk | .shw | .clsI _ => none
  | .movRI _ _ | .movRA _ _ | .movRR _ _ | .mfiRR _ _ | .mfiRA _ _ => none
  | .sblR _ | .sbrR _ | .rblR _ | .rbrR _ | .notR _ | .incR _ | .decR _ => none
  | .andRI _ _ | .andRA _ _ | .andRR _ _ | .orRI _ _ | .orRA _ _ | .orRR _ _ | .xorRI _ _ | .xorRA _ _ | .xorRR _ _ => none
  | .addRI _ _ | .addRA _ _ | .addRR _ _ | .subRI _ _ | .subRA _ _ | .subRR _ _ => none
  | .jmpI _ | .jmpR _ | .jifII _ _ | .jifIR _ _ | .jniII _ _ | .jniIR _ _ => none

end Sys2Proof

namespace Sys2Proof.Machine

/-! ## The state an instruction leaves -/

/-- R7 after `setZF(z)`, where it held `w`: bit 0 is the flag, the other bits are those of `w` (`10_state.md` R15). -/
def withFlag (w z : Byte) : Byte :=
  (w &&& 0xFE) ||| (if z = 0 then 1 else 0)

/-- `t` is `s` after a flag-setting instruction of `n` bytes, which made `k` draws, wrote `v` to register `d`, and
nothing else. -/
structure AfterRegister (s t : State) (d : RegName) (v : Byte) (n k : Nat) : Prop where
  destination : d ≠ r7 → t.getReg d = v
  others : ∀ r, r ≠ d → r ≠ r7 → t.getReg r = s.getReg r
  control : t.getReg r7 = withFlag (if d = r7 then v else s.getReg r7) v
  pc : t.pc = s.pc + BitVec.ofNat 12 n
  memory : ∀ a, t.byteAt a = s.byteAt a
  disp : t.disp = s.disp
  run : t.run = s.run
  trace : t.trace = s.trace
  draws : t.inputReads = s.inputReads + k

/-- `t` is `s` after a flag-setting instruction of `n` bytes, which made `k` draws, stored `v` at address `a` and set
ZF from `z`, and nothing else; a store to 0x080 is dropped. -/
structure AfterStore (s t : State) (a : Addr) (v z : Byte) (n k : Nat) : Prop where
  stored : a ≠ 0x080 → t.byteAt a = v
  memory : ∀ b, b ≠ a ∨ b = 0x080 → t.byteAt b = s.byteAt b
  registers : ∀ r, r ≠ r7 → t.getReg r = s.getReg r
  control : t.getReg r7 = withFlag (s.getReg r7) z
  pc : t.pc = s.pc + BitVec.ofNat 12 n
  disp : t.disp = s.disp
  run : t.run = s.run
  trace : t.trace = s.trace
  draws : t.inputReads = s.inputReads + k

/-- `t` is `s` after an instruction of `n` bytes, which made `k` draws, sent the event `e` and left `disp` holding
`shown`, and nothing else: no flag, no register, no memory byte. -/
structure AfterEvent (s t : State) (e : Event) (shown : Byte) (n k : Nat) : Prop where
  trace : t.trace = s.trace ++ [e]
  disp : t.disp = shown
  registers : ∀ r, t.getReg r = s.getReg r
  pc : t.pc = s.pc + BitVec.ofNat 12 n
  memory : ∀ a, t.byteAt a = s.byteAt a
  run : t.run = s.run
  draws : t.inputReads = s.inputReads + k

/-- `t` is `s` with the pc at `target`, and nothing else. -/
structure AfterJump (s t : State) (target : Addr) : Prop where
  pc : t.pc = target
  registers : ∀ r, t.getReg r = s.getReg r
  memory : ∀ a, t.byteAt a = s.byteAt a
  disp : t.disp = s.disp
  run : t.run = s.run
  trace : t.trace = s.trace
  draws : t.inputReads = s.inputReads

end Sys2Proof.Machine
end

