-- ==== Sys2Proof/Certificates/Slice0/Obligations.lean ====
section
/-!
DEFINITION. The statements for the provers, taken from the spec's numbered rules. They are written over every state and
every operand; the words they use (`AfterRegister`, `AfterStore`, `AfterEvent`, `AfterJump`, `State.sees`, `DecodesR` and
its like, `State.Inv`, `Instr.storesTo`) are defined in `Safety.lean`.
-/
open Sys2Proof Sys2Proof.Machine

/-- O1. For every instruction with every operand at every value, and any bytes after it, decode of its encoding
followed by those bytes is the instruction and those bytes. The byte layout is the spec's decision D1 (log 8).
[30_encoding.md section 1 (R50, R52, R53); 30_encoding.md section 3 (R56); 92_eei_decisions.md D1, D4] -/
def Obligations.DecodeInvertsEncode : Prop :=
  ∀ (i : Instr) (rest : List Byte), decode (encode i ++ rest) = .ok (i, rest)

/-- O2. Whatever bytes decode to an instruction and a rest, they are the encoding of that instruction followed by
that rest: each instruction has exactly one encoding and no bit of it is ignored. The byte layout is the spec's
decision D1, the REG byte D4 (logs 8, 11). [30_encoding.md section 1 (R50, R52, R53); 30_encoding.md section 2 (R54,
R55); 30_encoding.md section 3 (R56); 92_eei_decisions.md D1, D4] -/
def Obligations.DecodedBytesAreTheEncoding : Prop :=
  ∀ (bytes : List Byte) (i : Instr) (rest : List Byte), decode bytes = .ok (i, rest) → bytes = encode i ++ rest

/-- O3. Bytes decode to IllegalOpcode exactly when their first byte is one of the unassigned values R58 lists,
whatever follows, and the error names that byte. That an unassigned byte faults is the spec's decision D7 (log 11).
[30_encoding.md section 4 (R58); 60_exceptions.md section 1 (R182); 92_eei_decisions.md D7] -/
def Obligations.UnassignedOpcodesAreRejectedByName : Prop :=
  ∀ (op : Byte) (rest : List Byte),
    decode (op :: rest) = .error (.illegalOpcode op) ↔
      let n := op.toNat
      n = 0 ∨ (0x08 ≤ n ∧ n ≤ 0x0E) ∨ n = 0x16 ∨ n = 0x17 ∨ n = 0x2E ∨ n = 0x2F ∨ (0x3C ≤ n ∧ n ≤ 0x3F) ∨
        (0x46 ≤ n ∧ n ≤ 0x4F) ∨ 0x58 ≤ n

/-- O4. The encoding of every instruction has one byte more than its statement has operands, which are at most two,
and the opcode byte alone gives that length. The length law is the spec's decision D1 (log 8). [30_encoding.md
section 1 (R50); 92_eei_decisions.md D1] -/
def Obligations.LengthIsOnePlusOperands : Prop :=
  ∀ i : Instr, i.length = 1 + i.statement.operands.length ∧ i.length ≤ 3 ∧
    ∀ op bytes, encode i = op :: bytes → operandCount op = i.statement.operands.length

/-- O5. The byte rows the spec writes for one instruction of each family decode to that instruction. [30_encoding.md
section 3 (R56); 95_test_vectors.md section 2; 92_eei_decisions.md D1] -/
def Obligations.SampleWordsDecode : Prop :=
  decode [0x10, 0x02, 0x2A] = .ok (.movRI 2 0x2A, []) ∧
    decode [0x51, 0x00, 0x02] = .ok (.milRR 0 2, []) ∧
    decode [0x57, 0x11, 0xC0] = .ok (.mfiAA 0x11 0xC0, []) ∧
    decode [0x06, 0x03, 0x02] = .ok (.outIR 0x03 2, []) ∧
    decode [0x1E, 0x04] = .ok (.rbrR 4, []) ∧
    decode [0x21, 0xA0, 0x02] = .ok (.andAR 0xA0 2, []) ∧
    decode [0x36, 0x03, 0xA0] = .ok (.subRA 3 0xA0, []) ∧
    decode [0x43, 0x01, 0x02] = .ok (.jifIR 0x01 2, [])

/-- O6. Assembling gives bytes exactly for the well-formed statements; statements that assemble to the same bytes
are equal; and the bytes decode to an instruction that the statement writes. The reading of the punctuation is D19
(log 22). [30_encoding.md section 5 (R59, R60); 92_eei_decisions.md D19] -/
def Obligations.AssemblerIsExact : Prop :=
  (∀ st : AsmStatement, st.wellFormed = true ↔ ∃ bytes, assemble st = some bytes) ∧
    (∀ (st st' : AsmStatement) (bytes : List Byte), assemble st = some bytes → assemble st' = some bytes → st = st') ∧
    ∀ (st : AsmStatement) (bytes : List Byte), assemble st = some bytes →
      ∃ i : Instr, i.statement = st ∧ decode bytes = .ok (i, [])

/-- O7. For every running state: if the bytes fetched at the pc decode to an instruction, step is exec of that
instruction at the state after the fetch, and that state is the same but for the number of draws of the input
controller. The step order is the spec's decision D5. [00_scope.md section 5 (R7); 10_state.md section 4 (R17);
92_eei_decisions.md D2, D5] -/
def Obligations.StepRunsTheDecodedInstruction : Prop :=
  ∀ (s : State) (i : Instr) (rest : List Byte), s.run = .running → decode (fetch s).1 = .ok (i, rest) →
    step s = exec i (fetch s).2 ∧ ∃ k, (fetch s).2 = { s with inputReads := s.inputReads + k }

/-- O8. For every running state and instruction: if the bytes of the instruction's encoding stand at the pc and the
addresses after it modulo 4096, none of them 0x080, then step is exec of the instruction at that very state. That
the pc is 12 bits wide and wraps is the spec's decision D2 (log 9). [10_state.md section 4 (R17, R18); 20_memory.md
section 6 (R43); 92_eei_decisions.md D1, D2] -/
def Obligations.StepRunsTheInstructionInMemory : Prop :=
  ∀ (s : State) (i : Instr), s.run = .running →
    (∀ (k : Nat) (h : k < (encode i).length), s.pc + BitVec.ofNat 12 k ≠ 0x080 ∧
      s.byteAt (s.pc + BitVec.ofNat 12 k) = (encode i)[k]) →
    step s = exec i s

/-- O9. A fetch gives one byte more than the opcode it read has operands; byte k of it is what a read of the address
pc + k modulo 4096 sees after the draws of the bytes before it, so that at 0x080 the opcode byte or an operand byte
is a draw of the input controller; the fetch makes one draw for each of its addresses that is 0x080 and changes
nothing else; and a fetch that meets no such address gives the stored bytes and changes nothing. That an instruction
is one byte longer than it has operands is D1 (log 8); that a fetch of 0x080 sees a draw is D11 (log 4); that the
addresses wrap is D2 (log 9). [10_state.md section 4 (R17); 20_memory.md section 2 (R35); 30_encoding.md section 1
(R50, R52); 92_eei_decisions.md D1, D2, D11] -/
def Obligations.FetchReadsTheBytesAtThePc : Prop :=
  ∀ s : State,
    let n := 1 + operandCount (s.sees s.pc 0)
    (fetch s).1.length = n ∧
    (∀ (k : Nat) (h : k < (fetch s).1.length),
      (fetch s).1[k] = s.sees (s.pc + BitVec.ofNat 12 k) (deviceReadsFrom s.pc k)) ∧
    (fetch s).2 = { s with inputReads := s.inputReads + deviceReadsFrom s.pc n } ∧
    ((∀ k, k < n → s.pc + BitVec.ofNat 12 k ≠ 0x080) →
      (fetch s).2 = s ∧
      ∀ (k : Nat) (h : k < (fetch s).1.length), (fetch s).1[k] = s.byteAt (s.pc + BitVec.ofNat 12 k))

/-- O10. Two states that differ only in their registers fetch the same bytes. That sequential fetch is not paged is
the spec's decision D2 (log 9). [10_state.md section 4 (R17); 70_reset_and_hazards.md section 1 (R202);
92_eei_decisions.md D2] -/
def Obligations.FetchIgnoresThePage : Prop :=
  ∀ (s : State) (regs : Vector Byte 8),
    (fetch { s with regs := regs }).1 = (fetch s).1 ∧
    (fetch { s with regs := regs }).2 = { (fetch s).2 with regs := regs }

/-- O11. For every running state whose fetched bytes are rejected, step answers the same state with run faulted:
IllegalOpcode with the pc and the opcode byte, or IllegalRegister with the pc, the opcode, the operand position and
the byte; and no other kind of rejection arises. The faults are the spec's decisions D4, D7, D22 (logs 7, 11).
[60_exceptions.md section 1 (R181, R182, R183, R184); 92_eei_decisions.md D4, D7, D22] -/
def Obligations.RejectedBytesFaultTheMachine : Prop :=
  ∀ s : State, s.run = .running →
    (∀ op, decode (fetch s).1 = .error (.illegalOpcode op) →
      step s = .next { s with run := .faulted (.illegalOpcode s.pc op) }) ∧
    (∀ op k b, decode (fetch s).1 = .error (.illegalRegister op k b) →
      step s = .next { s with run := .faulted (.illegalRegister s.pc op k b) }) ∧
    decode (fetch s).1 ≠ .error .truncated

/-- O12. For every running state with the pc not at the device: if the byte at the pc has no row in the opcode map,
step answers the same state with run Faulted(IllegalOpcode(pc, byte)); and 0x00 has none. This is the spec's
decision D7 (log 11). [60_exceptions.md section 1 (R181, R182); 30_encoding.md section 4 (R58); 92_eei_decisions.md
D7] -/
def Obligations.UnassignedOpcodeInMemoryFaults : Prop :=
  (∀ s : State, s.run = .running → s.pc ≠ 0x080 → layoutOf (s.byteAt s.pc) = none →
      step s = .next { s with run := .faulted (.illegalOpcode s.pc (s.byteAt s.pc)) }) ∧
    layoutOf 0x00 = none

/-- O13. From a halted state any number of steps answers that same state. That the step of a halted machine answers
the state itself is the model's choice (log 6); that Halted is final is the spec's decision D16. [60_exceptions.md
section 9 (R192); 10_state.md section 6 (R20); 92_eei_decisions.md D16] -/
def Obligations.HaltedIsFinal : Prop :=
  ∀ (s : State) (k : Nat), s.run = .halted → Host.Core.run Sys2Proof.core k s = .next s

/-- O14. From a state faulted with a reason, any positive number of steps stops with that reason. That the step of a
faulted machine answers its reason is the model's choice (log 7). [60_exceptions.md section 1 (R181); 10_state.md
section 6 (R20); 92_eei_decisions.md D7, D22] -/
def Obligations.FaultedIsFinal : Prop :=
  ∀ (s : State) (f : Fault) (k : Nat), s.run = .faulted f → Host.Core.run Sys2Proof.core (k + 1) s = .fault f

/-- O15. From every state that is not faulted a step answers a next state; no access, no arithmetic and no
instruction stops the machine. That a halted state answers itself and a faulted one its reason is the model's choice
(logs 6, 7). [60_exceptions.md section 1 (R180); 70_reset_and_hazards.md section 4 (R205); 92_eei_decisions.md D16]
-/
def Obligations.StepStopsOnlyWhenFaulted : Prop :=
  ∀ s : State, (∃ t, step s = .next t) ∨ ∃ f, s.run = .faulted f ∧ step s = .fault f

/-- O16. For every instruction and state, exec answers a next state: no access faults, no arithmetic faults, nothing
is privileged. That there is one mode of execution, in which every instruction may run, is D17 (log 18): the source
is silent. [60_exceptions.md section 1 (R180); 60_exceptions.md section 4 (R187); 20_memory.md section 7 (R45);
92_eei_decisions.md D17] -/
def Obligations.EveryInstructionAnswers : Prop :=
  ∀ (i : Instr) (s : State), ∃ t, exec i s = .next t

/-- O17. From every state, if the run reaches Halted it never reaches Faulted, and the reverse: at most one of the
two ends. It rests on the final states of D16 and D7 (logs 6, 7). [70_reset_and_hazards.md section 4 (R205);
60_exceptions.md section 1 (R181); 92_eei_decisions.md D16] -/
def Obligations.RunEndsInOneWayOnly : Prop :=
  ∀ s : State, ¬ (s.endsHalted ∧ s.endsFaulted)

/-- O18. For every running state and the state its step answers: that state is Halted exactly when the fetched bytes
decode to BRK, faulted exactly when they are rejected, and otherwise still running. R205 is the spec's decision D16.
[70_reset_and_hazards.md section 4 (R205); 60_exceptions.md section 9 (R192); 10_state.md section 6 (R20);
92_eei_decisions.md D16] -/
def Obligations.LeavingRunning : Prop :=
  ∀ s t : State, s.run = .running → step s = .next t →
    (t.run = .halted ↔ ∃ rest, decode (fetch s).1 = .ok (.brk, rest)) ∧
    ((∃ f, t.run = .faulted f) ↔ ∃ e, decode (fetch s).1 = .error e) ∧
    (t.run = .halted ∨ (∃ f, t.run = .faulted f) ∨ t.run = .running)

/-- O19. For any RESET_REGS, RESET_DISP and INITIAL_MEMORY the start state has the pc at 0x090, holds those values,
is running and has sent nothing, and its first read of 0x080 sees the first draw of the input controller;
State.reset is such a state. That registers, disp and memory are arguments is D14 and D15, the run state and the
trace are the spec's own model, the draw is D11 and its number 0 the model's (log 4). R200 does not speak of
State.reset: that it is a start state, and the values it holds (logs 1 to 3, not claimed here), are the model's
choice. [R200; 20_memory.md section 2 (R35); 92_eei_decisions.md D11, D14, D15] -/
def Obligations.StartState : Prop :=
  (∀ (regs : Vector Byte 8) (disp : Byte) (image : Memory),
      let s := State.start regs disp image
      s.pc = 0x090 ∧ (∀ r : RegName, s.getReg r = regs[r]) ∧ s.disp = disp ∧
      (∀ a, a ≠ 0x080 → s.sees a 0 = image.read a.toNat) ∧ s.sees 0x080 0 = Config.input 0 ∧
      s.run = .running ∧ s.trace = []) ∧
    ∃ regs disp image, State.reset = State.start regs disp image

/-- O20. For any registers and disp and any canonical initial memory the start state meets the invariant, and
State.reset meets it. The canonical form is the model's own (log 3). [70_reset_and_hazards.md section 1 (R200);
10_state.md section 7 (R21)] -/
def Obligations.StartMeetsTheInvariant : Prop :=
  (∀ (regs : Vector Byte 8) (disp : Byte) (image : Memory), image.wf → (State.start regs disp image).Inv) ∧
    State.reset.Inv

/-- O21. From every state that meets the invariant, a step that answers a next state answers one that meets it:
memory canonical with nothing stored at 0x080, a faulted machine's reason names the pc and a byte that decoding
rejects, every Show event holds 128 bytes. The canonical form is the model's own (log 3); the faults and the dropped
write are D4, D7, D11. [10_state.md section 7 (R21); 20_memory.md section 2 (R34); 41_io_system.md section 5 (R99);
60_exceptions.md section 1 (R181, R182, R183); 92_eei_decisions.md D4, D7, D11] -/
def Obligations.StepKeepsTheInvariant : Prop :=
  ∀ s t : State, s.Inv → step s = .next t → t.Inv

/-- O22. For any registers, disp and canonical initial memory, a machine whose host has placed an instruction's
bytes at 0x090 executes exactly that instruction in its first step. R202 is the spec's decision D2.
[70_reset_and_hazards.md section 1 (R202); 70_reset_and_hazards.md section 2 (R203); 92_eei_decisions.md D2, D15] -/
def Obligations.FirstInstructionIsAt0x090 : Prop :=
  ∀ (regs : Vector Byte 8) (disp : Byte) (image : Memory) (i : Instr), image.wf →
    step ((State.start regs disp image).load 0x090 (encode i)) =
      exec i ((State.start regs disp image).load 0x090 (encode i))

/-- O23. For every state and offset: the effective address is 256 times the upper four bits of R7 plus the offset;
it equals the source's formula ((R7 >> 4) & 0x0F) << 8 | (offset & 0xFF) in 12 bits; and bits 3:0 of R7 take no
part. [R30] -/
def Obligations.EffectiveAddressFormula : Prop :=
  ∀ (s : State) (off : Byte),
    (s.ea off).toNat = (s.getReg r7).toNat / 16 * 256 + off.toNat ∧
    s.ea off = (((s.getReg r7).setWidth 12 >>> 4) &&& 0x00F) <<< 8 ||| (off.setWidth 12 &&& 0x0FF) ∧
    ∀ t : State, (t.getReg r7).toNat / 16 = (s.getReg r7).toNat / 16 → t.ea off = s.ea off

/-- O24. For every 12-bit address there is exactly one pair of a page and an offset whose effective address it is in
a state with that page. [20_memory.md section 7 (R45)] -/
def Obligations.EveryAddressHasOnePageAndOffset : Prop :=
  ∀ a : Addr, ∃! po : BitVec 4 × Byte, ∀ s : State, s.page = po.1 → s.ea po.2 = a

/-- O25. Reading any address gives the stored byte, and at 0x080 the draw of that read; it changes nothing but the
number of draws made, by one at 0x080 and not at all elsewhere; and no stored byte can influence what 0x080 reads
as. The draw per read is D11 (log 4). [20_memory.md section 2 (R33, R35); 92_eei_decisions.md D11] -/
def Obligations.ReadsSeeMemoryOrTheInputController : Prop :=
  ∀ (s : State) (a : Addr),
    (a ≠ 0x080 → s.memRead a = (s.byteAt a, s)) ∧
    (s.memRead 0x080 = (Config.input s.inputReads, { s with inputReads := s.inputReads + 1 })) ∧
    ∀ (b : Addr) (v : Byte), ((s.memWrite b v).memRead 0x080).1 = (s.memRead 0x080).1

/-- O26. In every state with canonical memory: a write to any address but 0x080 is read back there; every other byte
is unchanged; a write to 0x080 changes nothing at all; and a write changes no register, no pc, no disp, no run
state, no trace and no draw. That writes to 0x080 are dropped and all other bytes are plain memory is D11, D20 (logs
15, 19). [20_memory.md section 2 (R33, R34); 20_memory.md section 6 (R41); 92_eei_decisions.md D11, D20] -/
def Obligations.WritesAreReadBack : Prop :=
  ∀ (s : State) (a : Addr) (v : Byte), s.mem.wf →
    (a ≠ 0x080 → ((s.memWrite a v).memRead a).1 = v) ∧
    (∀ b, b ≠ a → (s.memWrite a v).byteAt b = s.byteAt b) ∧
    s.memWrite 0x080 v = s ∧
    ∃ m, s.memWrite a v = { s with mem := m }

/-- O27. Two memories in canonical form that read the same at each of the 4096 addresses but the device's are equal.
The canonical form is the model's own (log 3). [20_memory.md section 5 (R38); 10_state.md section 7 (R21)] -/
def Obligations.CanonicalMemoriesAreEqualData : Prop :=
  ∀ m m' : Memory, m.wf → m'.wf → (∀ a : Addr, a ≠ 0x080 → m.read a.toNat = m'.read a.toNat) → m = m'

/-- O28. In every state with canonical memory: after a byte is stored at an address other than 0x080, a fetch with
the pc there begins with that byte. That a store is seen at once is the spec's decision D10 (log 21). [20_memory.md
section 6 (R43); 92_eei_decisions.md D10] -/
def Obligations.AStoreIsSeenByTheNextFetch : Prop :=
  ∀ (s : State) (a : Addr) (v : Byte), s.mem.wf → a ≠ 0x080 →
    ∃ operands, (fetch ((s.memWrite a v).setPc a)).1 = v :: operands

/-- O29. For every instruction and state: every register other than R7 and the destination is unchanged; bits 7:1 of
R7, PAGE among them, are unchanged unless R7 is the destination; and an instruction that does not write ZF changes
no register at all. Which operand is the destination is D6, the flag's place D5 (logs 12, 13). [10_state.md section
2 (R11, R13); 10_state.md section 3 (R15, R16); 92_eei_decisions.md D5, D6] -/
def Obligations.RegistersChangeOnlyAsNamed : Prop :=
  ∀ (i : Instr) (s t : State), exec i s = .next t →
    (∀ r : RegName, r ≠ r7 → i.destination ≠ some r.val → t.getReg r = s.getReg r) ∧
    (i.destination ≠ some 7 → t.getReg r7 &&& 0xFE = s.getReg r7 &&& 0xFE) ∧
    (i.writesZF = false → ∀ r : RegName, t.getReg r = s.getReg r)

/-- O30. For every instruction and state: an instruction that is no jump ends with the pc advanced by its length
modulo 4096; a jump ends so or with the pc in the page R7 selects. The wrap is D2, the jump's page D3 (logs 9, 10).
[10_state.md section 4 (R18); 45_control_flow.md section 1 (R160); 92_eei_decisions.md D2, D3] -/
def Obligations.PcGoesOnOrJumpsInThePage : Prop :=
  ∀ (i : Instr) (s t : State), exec i s = .next t →
    (i.isJump = false → t.pc = s.pc + BitVec.ofNat 12 i.length) ∧
    (t.pc = s.pc + BitVec.ofNat 12 i.length ∨ t.pc.extractLsb' 8 4 = s.page)

/-- O31. For every instruction and state: a form whose destination is memory changes no byte but the one at the
address its destination operand gives (direct, through a register, or through a byte of memory), that address lies
in the page R7 selected at the start of the instruction, and at 0x080 not even that byte changes; every other form
leaves every byte of memory as it was. The page of the start is D5 (log 12), which operand is the destination D6
(log 13), the dropped write D11 (log 15). [20_memory.md section 1 (R31, R32); 20_memory.md section 2 (R34);
20_memory.md section 5 (R38); 92_eei_decisions.md D5, D6, D11] -/
def Obligations.StoresStayInTheActivePage : Prop :=
  ∀ (i : Instr) (s t : State), exec i s = .next t →
    (∀ a : Addr, i.storesTo s = some a →
      a.extractLsb' 8 4 = s.page ∧ ∀ b : Addr, b ≠ a ∨ b = 0x080 → t.byteAt b = s.byteAt b) ∧
    (i.storesTo s = none → ∀ b : Addr, t.byteAt b = s.byteAt b)

/-- O32. For every step that answers a next state the trace is the old one with at most one event after it; the
events come from OUT, SHW, CLS and DIS only; and disp changes only by DIS, to the value it sends. The trace is the
spec's own model of what leaves the CPU (D12, D13, log 16). [10_state.md section 6 (R20); 60_exceptions.md section 1
(R181); 92_eei_decisions.md D12, D13] -/
def Obligations.TraceIsAppendOnly : Prop :=
  (∀ s t : State, step s = .next t → ∃ events, t.trace = s.trace ++ events ∧ events.length ≤ 1) ∧
    ∀ (i : Instr) (s t : State), exec i s = .next t →
      (i.statement.mnemonic ∉ [Mnemonic.OUT, .SHW, .CLS, .DIS] → t.trace = s.trace) ∧
      (i.statement.mnemonic ≠ .DIS → t.disp = s.disp) ∧
      (i.statement.mnemonic = .DIS → t.trace = s.trace ++ [.disp t.disp])

/-- O33. For every instruction and state: if the instruction makes no draw, then from the same state at any other
point of the input it answers the same state at that point. The draw per read is D11 (log 4). [20_memory.md section
2 (R33, R35); 60_exceptions.md section 2 (R185); 92_eei_decisions.md D11] -/
def Obligations.OnlyReadsOf0x080LetInputIn : Prop :=
  ∀ (i : Instr) (s t : State), exec i s = .next t → t.inputReads = s.inputReads →
    ∀ n : Nat, exec i { s with inputReads := n } = .next { t with inputReads := n }

/-- O34. For every register: moving it to itself leaves every other register than R7 as it was and sets ZF exactly
when the register held zero; on R7 itself it leaves bits 7:1 and bit 0 as the flag. The flag in place of the data
bit is D5 (log 12). [40_data_transfer.md section 2 (R74); 92_eei_decisions.md D5, D6] -/
def Obligations.MovRegToItselfTestsForZero : Prop :=
  ∀ (s : State) (r : RegName), ∃ t, exec (.movRR r r) s = .next t ∧
    (∀ q, q ≠ r7 → t.getReg q = s.getReg q) ∧ t.getReg r7 = withFlag (s.getReg r7) (s.getReg r)

/-- O35. For every operand and state MOV answers a next state in which the destination holds the source's value and
ZF follows it, 3 bytes further, with every other register, memory byte, disp, run state and trace as before; ADDR
operands go through the page of the start and a read of 0x080 sees the input; a store to 0x080 is dropped; its bytes
decode to it and a REG byte above 7 is rejected. The length is D1, the flag over the data bit of R7 D5, the order of
REG, REG D6 (logs 8, 12, 13). The rejected REG byte rests on D4, the draw at 0x080 and the dropped write there on
D11 (logs 4, 11, 15). [R71; R72; R73; R74; 40_data_transfer.md section 1 (R70); 92_eei_decisions.md D1, D4, D5, D6,
D11] -/
def Obligations.MovMovesAndSetsZF : Prop :=
  DecodesRB 0x10 .movRI ∧
    DecodesBR 0x11 .movAR ∧
    DecodesRB 0x12 .movRA ∧
    DecodesRR 0x13 .movRR ∧
    (∀ (s : State) (d : RegName) (imm : Byte), ∃ t, exec (.movRI d imm) s = .next t ∧
      AfterRegister s t d imm 3 0) ∧
    (∀ (s : State) (a : Byte) (r : RegName), s.mem.wf → ∃ t, exec (.movAR a r) s = .next t ∧
      AfterStore s t (s.ea a) (s.getReg r) (s.getReg r) 3 0) ∧
    (∀ (s : State) (d : RegName) (a : Byte), ∃ t, exec (.movRA d a) s = .next t ∧
      AfterRegister s t d (s.sees (s.ea a) 0) 3 (deviceReads (s.ea a))) ∧
    (∀ (s : State) (d r : RegName), ∃ t, exec (.movRR d r) s = .next t ∧
      AfterRegister s t d (s.getReg r) 3 0)

/-- O36. For every operand and state with canonical memory MIL stores the source's value at the effective address of
the pointer and sets ZF from the pointer register, in the ADDR, REG form from the value written, 3 bytes further,
with nothing else changed; its bytes decode to it and a REG byte above 7 is rejected. The length is D1, the flag
over the data bit D5, the order of REG, REG D6 (logs 8, 12, 13). The rejected REG byte rests on D4, the draw at
0x080 and the dropped write there on D11 (logs 4, 11, 15). [R75; R76; R77; R78; 40_data_transfer.md section 1 (R70);
90_conflicts.md C2; 92_eei_decisions.md D1, D4, D5, D6, D11] -/
def Obligations.MilStoresThroughAPointer : Prop :=
  DecodesRB 0x50 .milRI ∧
    DecodesRR 0x51 .milRR ∧
    DecodesRB 0x52 .milRA ∧
    DecodesBR 0x53 .milAR ∧
    (∀ (s : State) (p : RegName) (imm : Byte), s.mem.wf → ∃ t, exec (.milRI p imm) s = .next t ∧
      AfterStore s t (s.ea (s.getReg p)) imm (s.getReg p) 3 0) ∧
    (∀ (s : State) (p r : RegName), s.mem.wf → ∃ t, exec (.milRR p r) s = .next t ∧
      AfterStore s t (s.ea (s.getReg p)) (s.getReg r) (s.getReg p) 3 0) ∧
    (∀ (s : State) (p : RegName) (a : Byte), s.mem.wf → ∃ t, exec (.milRA p a) s = .next t ∧
      AfterStore s t (s.ea (s.getReg p)) (s.sees (s.ea a) 0) (s.getReg p) 3 (deviceReads (s.ea a))) ∧
    (∀ (s : State) (a : Byte) (r : RegName), s.mem.wf → ∃ t, exec (.milAR a r) s = .next t ∧
      AfterStore s t (s.ea (s.sees (s.ea a) 0)) (s.getReg r) (s.getReg r) 3 (deviceReads (s.ea a)))

/-- O37. For every operand and state MFI moves the byte at the effective address of the pointer to the destination
and sets ZF from it, 3 bytes further, with nothing else changed; a pointer in memory is read before the byte it
points to, and each read of 0x080 is a draw of its own; both levels use the page of the start. The length is D1, the
flag over the data bit D5, the order of same-type forms D6, the draws D11 (logs 4, 8, 12, 13). The rejected REG byte
rests on D4, the dropped write at 0x080 on D11 (logs 11, 15). [R79; R80; R81; R82; 40_data_transfer.md section 1
(R70); 92_eei_decisions.md D1, D4, D5, D6, D11] -/
def Obligations.MfiLoadsThroughAPointer : Prop :=
  DecodesRR 0x54 .mfiRR ∧
    DecodesRB 0x55 .mfiRA ∧
    DecodesBR 0x56 .mfiAR ∧
    DecodesBB 0x57 .mfiAA ∧
    (∀ (s : State) (d p : RegName),
      let v : Byte := s.sees (s.ea (s.getReg p)) 0
      ∃ t, exec (.mfiRR d p) s = .next t ∧ AfterRegister s t d v 3 (deviceReads (s.ea (s.getReg p)))) ∧
    (∀ (s : State) (d : RegName) (a : Byte),
      let ptr : Byte := s.sees (s.ea a) 0
      let v : Byte := s.sees (s.ea ptr) (deviceReads (s.ea a))
      ∃ t, exec (.mfiRA d a) s = .next t ∧ AfterRegister s t d v 3 (deviceReads (s.ea a) + deviceReads (s.ea ptr))) ∧
    (∀ (s : State) (b : Byte) (p : RegName), s.mem.wf →
      let v : Byte := s.sees (s.ea (s.getReg p)) 0
      ∃ t, exec (.mfiAR b p) s = .next t ∧ AfterStore s t (s.ea b) v v 3 (deviceReads (s.ea (s.getReg p)))) ∧
    (∀ (s : State) (b a : Byte), s.mem.wf →
      let ptr : Byte := s.sees (s.ea a) 0
      let v : Byte := s.sees (s.ea ptr) (deviceReads (s.ea a))
      ∃ t, exec (.mfiAA b a) s = .next t ∧
        AfterStore s t (s.ea b) v v 3 (deviceReads (s.ea a) + deviceReads (s.ea ptr)))

/-- O38. For every operand and state DIS puts the source's value into disp and sends Disp of it, 2 bytes further,
and changes no register, flag or memory byte. The event is D13 (log 16). The byte layout rests on D1, the rejected
REG byte on D4, the draw at 0x080 on D11 (logs 4, 8, 11). [R90; R91; R92; 92_eei_decisions.md D1, D4, D11, D13] -/
def Obligations.DisShowsAValue : Prop :=
  DecodesB 0x01 .disI ∧
    DecodesR 0x02 .disR ∧
    DecodesB 0x03 .disA ∧
    (∀ (s : State) (imm : Byte), ∃ t, exec (.disI imm) s = .next t ∧
      AfterEvent s t (.disp imm) imm 2 0) ∧
    (∀ (s : State) (r : RegName), ∃ t, exec (.disR r) s = .next t ∧
      AfterEvent s t (.disp (s.getReg r)) (s.getReg r) 2 0) ∧
    (∀ (s : State) (a : Byte), ∃ t, exec (.disA a) s = .next t ∧
      AfterEvent s t (.disp (s.sees (s.ea a) 0)) (s.sees (s.ea a) 0) 2 (deviceReads (s.ea a)))

/-- O39. For every register and state IN puts the byte the input controller presents at this read into the register
and sets ZF from it, 2 bytes further, one draw used, nothing else changed; PAGE plays no part (D18, log 20); the
byte is a free value (D11, log 4), and this holds whatever it is. The byte layout rests on D1, the rejected REG byte
on D4, R7 as destination on D5 (logs 8, 11, 12). [R93; 90_conflicts.md C8; 92_eei_decisions.md D1, D4, D5, D11, D18]
-/
def Obligations.InReadsTheInputController : Prop :=
  DecodesR 0x04 .inR ∧
    (∀ (s : State) (d : RegName),
      let v : Byte := Config.input s.inputReads
      ∃ t, exec (.inR d) s = .next t ∧ AfterRegister s t d v 2 1)

/-- O40. For every operand and state OUT sends Out(port, value), port the first operand, 3 bytes further, and
changes no register, flag, memory byte or disp. The order of the operands is D6, the event D12 (logs 13, 16). The
byte layout rests on D1, the rejected REG byte on D4, the draw at 0x080 on D11 (logs 4, 8, 11). [R94; R95; R96; R97;
92_eei_decisions.md D1, D4, D6, D11, D12] -/
def Obligations.OutSendsAValueToAPort : Prop :=
  DecodesBB 0x05 .outII ∧
    DecodesBR 0x06 .outIR ∧
    DecodesBB 0x07 .outIA ∧
    (∀ (s : State) (port v : Byte), ∃ t, exec (.outII port v) s = .next t ∧
      AfterEvent s t (.out port v) s.disp 3 0) ∧
    (∀ (s : State) (port : Byte) (r : RegName), ∃ t, exec (.outIR port r) s = .next t ∧
      AfterEvent s t (.out port (s.getReg r)) s.disp 3 0) ∧
    (∀ (s : State) (port a : Byte), ∃ t, exec (.outIA port a) s = .next t ∧
      AfterEvent s t (.out port (s.sees (s.ea a) 0)) s.disp 3 (deviceReads (s.ea a)))

/-- O41. In every state BRK answers the same state with run Halted and the pc one further: registers, memory, disp
and trace keep their values. Where the pc stands after a halt is the spec's own choice (D16, log 17). The byte
layout rests on D1 (log 8). [R98; 92_eei_decisions.md D1, D16] -/
def Obligations.BrkHalts : Prop :=
  DecodesN 0x0F .brk ∧
    (∀ s : State, exec .brk s = .next { s with pc := s.pc + 1, run := .halted })

/-- O42. In every state SHW sends Show of 128 bytes, the i-th being the stored byte at absolute address i, 1 byte
further, and changes no register, flag, memory byte or disp. The snapshot is D13, the absolute addresses D18 (logs
16, 20). The byte layout rests on D1 (log 8). [R99; 90_conflicts.md C8; 92_eei_decisions.md D1, D13, D18] -/
def Obligations.ShwSendsTheDisplayBuffer : Prop :=
  DecodesN 0x14 .shw ∧
    (∀ s : State, ∃ t bytes, exec .shw s = .next t ∧ AfterEvent s t (.show bytes) s.disp 1 0 ∧
      bytes.length = 128 ∧ ∀ (i : Nat) (h : i < bytes.length), bytes[i] = s.byteAt (BitVec.ofNat 12 i))

/-- O43. For every colour and state CLS sends Clear(colour), 2 bytes further, and changes no register, flag, memory
byte or disp. That the display buffer is left alone is the spec's own choice (D13, log 16). The byte layout rests on
D1 (log 8). [R100; 92_eei_decisions.md D1, D13] -/
def Obligations.ClsClearsTheScreenOnly : Prop :=
  DecodesB 0x15 .clsI ∧
    (∀ (s : State) (colour : Byte), ∃ t, exec (.clsI colour) s = .next t ∧
      AfterEvent s t (.clear colour) s.disp 2 0)

/-- O44. For every operand and state SBL writes back twice the value modulo 256 and sets ZF from it, 2 bytes
further, with nothing else changed; on R7 bit 0 of the result is then replaced by ZF; in memory a read of 0x080 sees
the input and the write there is dropped; its bytes decode to it and a REG byte above 7 is rejected. The byte layout
rests on D1, the rejected REG byte on D4, R7 as destination on D5, the draw at 0x080 and the dropped write there on
D11 (logs 4, 8, 11, 12, 15). [R111; R112; 92_eei_decisions.md D1, D4, D5, D11] -/
def Obligations.SblShiftsLeft : Prop :=
  DecodesR 0x18 .sblR ∧
    DecodesB 0x19 .sblA ∧
    (∀ (s : State) (r : RegName),
      let v : Byte := BitVec.ofNat 8 ((s.getReg r).toNat * 2 % 256)
      ∃ t, exec (.sblR r) s = .next t ∧ AfterRegister s t r v 2 0) ∧
    (∀ (s : State) (a : Byte), s.mem.wf →
      let v : Byte := BitVec.ofNat 8 ((s.sees (s.ea a) 0).toNat * 2 % 256)
      ∃ t, exec (.sblA a) s = .next t ∧ AfterStore s t (s.ea a) v v 2 (deviceReads (s.ea a)))

/-- O45. For every operand and state SBR writes back half the value rounded down and sets ZF from it, 2 bytes
further, with nothing else changed; on R7 bit 0 of the result is then replaced by ZF; in memory a read of 0x080 sees
the input and the write there is dropped; its bytes decode to it and a REG byte above 7 is rejected. The byte layout
rests on D1, the rejected REG byte on D4, R7 as destination on D5, the draw at 0x080 and the dropped write there on
D11 (logs 4, 8, 11, 12, 15). [R113; R114; 92_eei_decisions.md D1, D4, D5, D11] -/
def Obligations.SbrShiftsRight : Prop :=
  DecodesR 0x1A .sbrR ∧
    DecodesB 0x1B .sbrA ∧
    (∀ (s : State) (r : RegName),
      let v : Byte := BitVec.ofNat 8 ((s.getReg r).toNat / 2)
      ∃ t, exec (.sbrR r) s = .next t ∧ AfterRegister s t r v 2 0) ∧
    (∀ (s : State) (a : Byte), s.mem.wf →
      let v : Byte := BitVec.ofNat 8 ((s.sees (s.ea a) 0).toNat / 2)
      ∃ t, exec (.sbrA a) s = .next t ∧ AfterStore s t (s.ea a) v v 2 (deviceReads (s.ea a)))

/-- O46. For every operand and state RBL writes back the value rotated left by one and sets ZF from it, 2 bytes
further, with nothing else changed; on R7 bit 0 of the result is then replaced by ZF; in memory a read of 0x080 sees
the input and the write there is dropped; its bytes decode to it and a REG byte above 7 is rejected. The byte layout
rests on D1, the rejected REG byte on D4, R7 as destination on D5, the draw at 0x080 and the dropped write there on
D11 (logs 4, 8, 11, 12, 15). [R115; R116; 92_eei_decisions.md D1, D4, D5, D11] -/
def Obligations.RblRotatesLeft : Prop :=
  DecodesR 0x1C .rblR ∧
    DecodesB 0x1D .rblA ∧
    (∀ (s : State) (r : RegName),
      let v : Byte := BitVec.ofNat 8 ((s.getReg r).toNat * 2 % 256 + (s.getReg r).toNat / 128)
      ∃ t, exec (.rblR r) s = .next t ∧ AfterRegister s t r v 2 0) ∧
    (∀ (s : State) (a : Byte), s.mem.wf →
      let v : Byte := BitVec.ofNat 8 ((s.sees (s.ea a) 0).toNat * 2 % 256 + (s.sees (s.ea a) 0).toNat / 128)
      ∃ t, exec (.rblA a) s = .next t ∧ AfterStore s t (s.ea a) v v 2 (deviceReads (s.ea a)))

/-- O47. For every operand and state RBR writes back the value rotated right by one and sets ZF from it, 2 bytes
further, with nothing else changed; on R7 bit 0 of the result is then replaced by ZF; in memory a read of 0x080 sees
the input and the write there is dropped; its bytes decode to it and a REG byte above 7 is rejected. The byte layout
rests on D1, the rejected REG byte on D4, R7 as destination on D5, the draw at 0x080 and the dropped write there on
D11 (logs 4, 8, 11, 12, 15). [R117; R118; 92_eei_decisions.md D1, D4, D5, D11] -/
def Obligations.RbrRotatesRight : Prop :=
  DecodesR 0x1E .rbrR ∧
    DecodesB 0x1F .rbrA ∧
    (∀ (s : State) (r : RegName),
      let v : Byte := BitVec.ofNat 8 ((s.getReg r).toNat / 2 + (s.getReg r).toNat % 2 * 128)
      ∃ t, exec (.rbrR r) s = .next t ∧ AfterRegister s t r v 2 0) ∧
    (∀ (s : State) (a : Byte), s.mem.wf →
      let v : Byte := BitVec.ofNat 8 ((s.sees (s.ea a) 0).toNat / 2 + (s.sees (s.ea a) 0).toNat % 2 * 128)
      ∃ t, exec (.rbrA a) s = .next t ∧ AfterStore s t (s.ea a) v v 2 (deviceReads (s.ea a)))

/-- O48. For every operand and state AND writes the bitwise AND of its operands into the first operand and sets ZF
from it, 3 bytes further, with nothing else changed (the second operand among the rest); in memory a read of 0x080
sees the input and the write there is dropped; its bytes decode to it and a REG byte above 7 is rejected. The length
is D1, the flag over the data bit of R7 D5, the first operand as destination D6 (logs 8, 12, 13). The rejected REG
byte rests on D4, the draw at 0x080 and the dropped write there on D11 (logs 4, 11, 15). [R121; R122; R123; R124;
43_logical.md section 1 (R120); 92_eei_decisions.md D1, D4, D5, D6, D11] -/
def Obligations.AndCombinesIntoTheFirst : Prop :=
  DecodesRB 0x20 .andRI ∧
    DecodesBR 0x21 .andAR ∧
    DecodesRB 0x22 .andRA ∧
    DecodesRR 0x23 .andRR ∧
    (∀ (s : State) (d : RegName) (imm : Byte), ∃ t, exec (.andRI d imm) s = .next t ∧
      AfterRegister s t d ((s.getReg d) &&& imm) 3 0) ∧
    (∀ (s : State) (a : Byte) (r : RegName), s.mem.wf →
      let v : Byte := (s.sees (s.ea a) 0) &&& (s.getReg r)
      ∃ t, exec (.andAR a r) s = .next t ∧ AfterStore s t (s.ea a) v v 3 (deviceReads (s.ea a))) ∧
    (∀ (s : State) (d : RegName) (a : Byte),
      let v : Byte := (s.getReg d) &&& (s.sees (s.ea a) 0)
      ∃ t, exec (.andRA d a) s = .next t ∧ AfterRegister s t d v 3 (deviceReads (s.ea a))) ∧
    (∀ (s : State) (d r : RegName),
      let v : Byte := (s.getReg d) &&& (s.getReg r)
      ∃ t, exec (.andRR d r) s = .next t ∧ AfterRegister s t d v 3 0)

/-- O49. For every operand and state OR writes the bitwise OR of its operands into the first operand and sets ZF
from it, 3 bytes further, with nothing else changed (the second operand among the rest); in memory a read of 0x080
sees the input and the write there is dropped; its bytes decode to it and a REG byte above 7 is rejected. The length
is D1, the flag over the data bit of R7 D5, the first operand as destination D6 (logs 8, 12, 13). The rejected REG
byte rests on D4, the draw at 0x080 and the dropped write there on D11 (logs 4, 11, 15). [R125; R126; R127; R128;
43_logical.md section 1 (R120); 92_eei_decisions.md D1, D4, D5, D6, D11] -/
def Obligations.OrCombinesIntoTheFirst : Prop :=
  DecodesRB 0x24 .orRI ∧
    DecodesBR 0x25 .orAR ∧
    DecodesRB 0x26 .orRA ∧
    DecodesRR 0x27 .orRR ∧
    (∀ (s : State) (d : RegName) (imm : Byte), ∃ t, exec (.orRI d imm) s = .next t ∧
      AfterRegister s t d ((s.getReg d) ||| imm) 3 0) ∧
    (∀ (s : State) (a : Byte) (r : RegName), s.mem.wf →
      let v : Byte := (s.sees (s.ea a) 0) ||| (s.getReg r)
      ∃ t, exec (.orAR a r) s = .next t ∧ AfterStore s t (s.ea a) v v 3 (deviceReads (s.ea a))) ∧
    (∀ (s : State) (d : RegName) (a : Byte),
      let v : Byte := (s.getReg d) ||| (s.sees (s.ea a) 0)
      ∃ t, exec (.orRA d a) s = .next t ∧ AfterRegister s t d v 3 (deviceReads (s.ea a))) ∧
    (∀ (s : State) (d r : RegName),
      let v : Byte := (s.getReg d) ||| (s.getReg r)
      ∃ t, exec (.orRR d r) s = .next t ∧ AfterRegister s t d v 3 0)

/-- O50. For every operand and state XOR writes the bitwise exclusive OR of its operands into the first operand and
sets ZF from it, 3 bytes further, with nothing else changed (the second operand among the rest); in memory a read of
0x080 sees the input and the write there is dropped; its bytes decode to it and a REG byte above 7 is rejected. The
length is D1, the flag over the data bit of R7 D5, the first operand as destination D6 (logs 8, 12, 13). The
rejected REG byte rests on D4, the draw at 0x080 and the dropped write there on D11 (logs 4, 11, 15). [R129; R130;
R131; R132; 43_logical.md section 1 (R120); 92_eei_decisions.md D1, D4, D5, D6, D11] -/
def Obligations.XorCombinesIntoTheFirst : Prop :=
  DecodesRB 0x28 .xorRI ∧
    DecodesBR 0x29 .xorAR ∧
    DecodesRB 0x2A .xorRA ∧
    DecodesRR 0x2B .xorRR ∧
    (∀ (s : State) (d : RegName) (imm : Byte), ∃ t, exec (.xorRI d imm) s = .next t ∧
      AfterRegister s t d ((s.getReg d) ^^^ imm) 3 0) ∧
    (∀ (s : State) (a : Byte) (r : RegName), s.mem.wf →
      let v : Byte := (s.sees (s.ea a) 0) ^^^ (s.getReg r)
      ∃ t, exec (.xorAR a r) s = .next t ∧ AfterStore s t (s.ea a) v v 3 (deviceReads (s.ea a))) ∧
    (∀ (s : State) (d : RegName) (a : Byte),
      let v : Byte := (s.getReg d) ^^^ (s.sees (s.ea a) 0)
      ∃ t, exec (.xorRA d a) s = .next t ∧ AfterRegister s t d v 3 (deviceReads (s.ea a))) ∧
    (∀ (s : State) (d r : RegName),
      let v : Byte := (s.getReg d) ^^^ (s.getReg r)
      ∃ t, exec (.xorRR d r) s = .next t ∧ AfterRegister s t d v 3 0)

/-- O51. For every operand and state NOT writes back the value with every bit inverted and sets ZF from it, 2 bytes
further, with nothing else changed; on R7 bit 0 of the result is then replaced by ZF; in memory a read of 0x080 sees
the input and the write there is dropped; its bytes decode to it and a REG byte above 7 is rejected. The byte layout
rests on D1, the rejected REG byte on D4, R7 as destination on D5, the draw at 0x080 and the dropped write there on
D11 (logs 4, 8, 11, 12, 15). [R133; R134; 92_eei_decisions.md D1, D4, D5, D11] -/
def Obligations.NotInverts : Prop :=
  DecodesR 0x2C .notR ∧
    DecodesB 0x2D .notA ∧
    (∀ (s : State) (r : RegName), ∃ t, exec (.notR r) s = .next t ∧
      AfterRegister s t r ((s.getReg r) ^^^ 0xFF) 2 0) ∧
    (∀ (s : State) (a : Byte), s.mem.wf →
      let v : Byte := (s.sees (s.ea a) 0) ^^^ 0xFF
      ∃ t, exec (.notA a) s = .next t ∧ AfterStore s t (s.ea a) v v 2 (deviceReads (s.ea a)))

/-- O52. For every operand and state ADD writes the sum of its operands modulo 256 into the first operand and sets
ZF from it, 3 bytes further, with nothing else changed (the second operand among the rest); in memory a read of
0x080 sees the input and the write there is dropped; its bytes decode to it and a REG byte above 7 is rejected. The
length is D1, the flag over the data bit of R7 D5, the first operand as destination D6 (logs 8, 12, 13). The
rejected REG byte rests on D4, the draw at 0x080 and the dropped write there on D11 (logs 4, 11, 15). [R141; R142;
R143; R144; 44_arithmetic.md section 1 (R140); 92_eei_decisions.md D1, D4, D5, D6, D11] -/
def Obligations.AddAddsIntoTheFirst : Prop :=
  DecodesRB 0x30 .addRI ∧
    DecodesBR 0x31 .addAR ∧
    DecodesRB 0x32 .addRA ∧
    DecodesRR 0x33 .addRR ∧
    (∀ (s : State) (d : RegName) (imm : Byte),
      let v : Byte := BitVec.ofNat 8 (((s.getReg d).toNat + imm.toNat) % 256)
      ∃ t, exec (.addRI d imm) s = .next t ∧ AfterRegister s t d v 3 0) ∧
    (∀ (s : State) (a : Byte) (r : RegName), s.mem.wf →
      let v : Byte := BitVec.ofNat 8 (((s.sees (s.ea a) 0).toNat + (s.getReg r).toNat) % 256)
      ∃ t, exec (.addAR a r) s = .next t ∧ AfterStore s t (s.ea a) v v 3 (deviceReads (s.ea a))) ∧
    (∀ (s : State) (d : RegName) (a : Byte),
      let v : Byte := BitVec.ofNat 8 (((s.getReg d).toNat + (s.sees (s.ea a) 0).toNat) % 256)
      ∃ t, exec (.addRA d a) s = .next t ∧ AfterRegister s t d v 3 (deviceReads (s.ea a))) ∧
    (∀ (s : State) (d r : RegName),
      let v : Byte := BitVec.ofNat 8 (((s.getReg d).toNat + (s.getReg r).toNat) % 256)
      ∃ t, exec (.addRR d r) s = .next t ∧ AfterRegister s t d v 3 0)

/-- O53. For every operand and state SUB writes the first operand less the second modulo 256 into the first operand
and sets ZF from it, 3 bytes further, with nothing else changed (the second operand among the rest); in memory a
read of 0x080 sees the input and the write there is dropped; its bytes decode to it and a REG byte above 7 is
rejected. The length is D1, the flag over the data bit of R7 D5, the first operand as destination D6 (logs 8, 12,
13). The rejected REG byte rests on D4, the draw at 0x080 and the dropped write there on D11 (logs 4, 11, 15).
[R145; R146; R147; R148; 44_arithmetic.md section 1 (R140); 92_eei_decisions.md D1, D4, D5, D6, D11] -/
def Obligations.SubSubtractsFromTheFirst : Prop :=
  DecodesRB 0x34 .subRI ∧
    DecodesBR 0x35 .subAR ∧
    DecodesRB 0x36 .subRA ∧
    DecodesRR 0x37 .subRR ∧
    (∀ (s : State) (d : RegName) (imm : Byte),
      let v : Byte := BitVec.ofNat 8 (((s.getReg d).toNat + 256 - imm.toNat) % 256)
      ∃ t, exec (.subRI d imm) s = .next t ∧ AfterRegister s t d v 3 0) ∧
    (∀ (s : State) (a : Byte) (r : RegName), s.mem.wf →
      let v : Byte := BitVec.ofNat 8 (((s.sees (s.ea a) 0).toNat + 256 - (s.getReg r).toNat) % 256)
      ∃ t, exec (.subAR a r) s = .next t ∧ AfterStore s t (s.ea a) v v 3 (deviceReads (s.ea a))) ∧
    (∀ (s : State) (d : RegName) (a : Byte),
      let v : Byte := BitVec.ofNat 8 (((s.getReg d).toNat + 256 - (s.sees (s.ea a) 0).toNat) % 256)
      ∃ t, exec (.subRA d a) s = .next t ∧ AfterRegister s t d v 3 (deviceReads (s.ea a))) ∧
    (∀ (s : State) (d r : RegName),
      let v : Byte := BitVec.ofNat 8 (((s.getReg d).toNat + 256 - (s.getReg r).toNat) % 256)
      ∃ t, exec (.subRR d r) s = .next t ∧ AfterRegister s t d v 3 0)

/-- O54. For every operand and state INC writes back the value plus one modulo 256 and sets ZF from it, 2 bytes
further, with nothing else changed; on R7 bit 0 of the result is then replaced by ZF; in memory a read of 0x080 sees
the input and the write there is dropped; its bytes decode to it and a REG byte above 7 is rejected. The byte layout
rests on D1, the rejected REG byte on D4, R7 as destination on D5, the draw at 0x080 and the dropped write there on
D11 (logs 4, 8, 11, 12, 15). [R149; R150; 92_eei_decisions.md D1, D4, D5, D11] -/
def Obligations.IncAddsOne : Prop :=
  DecodesR 0x38 .incR ∧
    DecodesB 0x39 .incA ∧
    (∀ (s : State) (r : RegName),
      let v : Byte := BitVec.ofNat 8 (((s.getReg r).toNat + 1) % 256)
      ∃ t, exec (.incR r) s = .next t ∧ AfterRegister s t r v 2 0) ∧
    (∀ (s : State) (a : Byte), s.mem.wf →
      let v : Byte := BitVec.ofNat 8 (((s.sees (s.ea a) 0).toNat + 1) % 256)
      ∃ t, exec (.incA a) s = .next t ∧ AfterStore s t (s.ea a) v v 2 (deviceReads (s.ea a)))

/-- O55. For every operand and state DEC writes back the value minus one modulo 256 and sets ZF from it, 2 bytes
further, with nothing else changed; on R7 bit 0 of the result is then replaced by ZF; in memory a read of 0x080 sees
the input and the write there is dropped; its bytes decode to it and a REG byte above 7 is rejected. The byte layout
rests on D1, the rejected REG byte on D4, R7 as destination on D5, the draw at 0x080 and the dropped write there on
D11 (logs 4, 8, 11, 12, 15). [R151; R152; 92_eei_decisions.md D1, D4, D5, D11] -/
def Obligations.DecSubtractsOne : Prop :=
  DecodesR 0x3A .decR ∧
    DecodesB 0x3B .decA ∧
    (∀ (s : State) (r : RegName),
      let v : Byte := BitVec.ofNat 8 (((s.getReg r).toNat + 255) % 256)
      ∃ t, exec (.decR r) s = .next t ∧ AfterRegister s t r v 2 0) ∧
    (∀ (s : State) (a : Byte), s.mem.wf →
      let v : Byte := BitVec.ofNat 8 (((s.sees (s.ea a) 0).toNat + 255) % 256)
      ∃ t, exec (.decA a) s = .next t ∧ AfterStore s t (s.ea a) v v 2 (deviceReads (s.ea a)))

/-- O56. For all bytes: ADD's and SUB's results are the low 8 bits of the exact sum and difference; SUB a, b gives
what ADD a, (256 - b) mod 256 gives. For every operand and state, in each of the four forms: ZF after ADD is 1
exactly when the sum is zero, and ZF after SUB is 1 exactly when the two operands were equal. The eight rows of
R153's table hold, results and ZF, in the form with an immediate. With R7 as the destination ZF is the flag and not
the data bit by D5 (log 12); the operand order is D6 (log 13); an operand read at 0x080 is a draw by D11 (log 4).
[R153; 92_eei_decisions.md D5, D6, D11] -/
def Obligations.SubIsAddOfTheComplementAndZeroOnEqual : Prop :=
  (∀ x y : Byte, (addByte x y).toNat = (x.toNat + y.toNat) % 256 ∧
        ((subByte x y).toNat : Int) = ((x.toNat : Int) - y.toNat) % 256 ∧
        subByte x y = addByte x (BitVec.ofNat 8 ((256 - y.toNat) % 256)) ∧ (subByte x y = 0 ↔ x = y)) ∧
    (∀ (s : State) (d : RegName) (imm : Byte), ∃ t, exec (.addRI d imm) s = .next t ∧
      (t.zf = true ↔ addByte (s.getReg d) imm = 0)) ∧
    (∀ (s : State) (a : Byte) (r : RegName), ∃ t, exec (.addAR a r) s = .next t ∧
      (t.zf = true ↔ addByte (s.sees (s.ea a) 0) (s.getReg r) = 0)) ∧
    (∀ (s : State) (d : RegName) (a : Byte), ∃ t, exec (.addRA d a) s = .next t ∧
      (t.zf = true ↔ addByte (s.getReg d) (s.sees (s.ea a) 0) = 0)) ∧
    (∀ (s : State) (d r : RegName), ∃ t, exec (.addRR d r) s = .next t ∧
      (t.zf = true ↔ addByte (s.getReg d) (s.getReg r) = 0)) ∧
    (∀ (s : State) (d : RegName) (imm : Byte), ∃ t, exec (.subRI d imm) s = .next t ∧
      (t.zf = true ↔ s.getReg d = imm)) ∧
    (∀ (s : State) (a : Byte) (r : RegName), ∃ t, exec (.subAR a r) s = .next t ∧
      (t.zf = true ↔ s.sees (s.ea a) 0 = s.getReg r)) ∧
    (∀ (s : State) (d : RegName) (a : Byte), ∃ t, exec (.subRA d a) s = .next t ∧
      (t.zf = true ↔ s.getReg d = s.sees (s.ea a) 0)) ∧
    (∀ (s : State) (d r : RegName), ∃ t, exec (.subRR d r) s = .next t ∧
      (t.zf = true ↔ s.getReg d = s.getReg r)) ∧
    (∀ row ∈ ([(0xFF, 0x01, 0x00, true),
        (0x7F, 0x01, 0x80, false),
        (0x80, 0x80, 0x00, true),
        (0x00, 0x00, 0x00, true)] : List (Byte × Byte × Byte × Bool)),
      addByte row.1 row.2.1 = row.2.2.1 ∧
      ∀ (s : State) (d : RegName), s.getReg d = row.1 →
        ∃ t, exec (.addRI d row.2.1) s = .next t ∧ t.zf = row.2.2.2) ∧
    (∀ row ∈ ([(0x00, 0x01, 0xFF, false),
        (0x80, 0x01, 0x7F, false),
        (0x05, 0x05, 0x00, true),
        (0x10, 0x20, 0xF0, false)] : List (Byte × Byte × Byte × Bool)),
      subByte row.1 row.2.1 = row.2.2.1 ∧
      ∀ (s : State) (d : RegName), s.getReg d = row.1 →
        ∃ t, exec (.subRI d row.2.1) s = .next t ∧ t.zf = row.2.2.2)

/-- O57. For every operand and state JMP sets the pc to the effective address of the offset, taken from the operand
byte without reading memory or from the register, and changes nothing else. That the page comes from R7 is the
spec's decision D3 (log 10). The byte layout rests on D1, the rejected REG byte on D4 (logs 8, 11). [R161; R162;
45_control_flow.md section 1 (R160); 90_conflicts.md C5; 92_eei_decisions.md D1, D3, D4] -/
def Obligations.JmpGoesToTheOffsetInThePage : Prop :=
  DecodesB 0x40 .jmpI ∧
    DecodesR 0x41 .jmpR ∧
    (∀ (s : State) (o : Byte), ∃ t, exec (.jmpI o) s = .next t ∧
      AfterJump s t (s.ea o)) ∧
    (∀ (s : State) (r : RegName), ∃ t, exec (.jmpR r) s = .next t ∧
      AfterJump s t (s.ea (s.getReg r)))

/-- O58. For every operand and state JIF sets the pc to the effective address of the target when the condition
operand is exactly 1 and ZF is 1, and goes 3 bytes on otherwise, for 0 and for 2 to 255 alike; nothing else changes.
The length is D1, the page D3, the values 2 to 255 D8 (logs 8, 10, 14). The rejected REG byte rests on D4, the first
operand as the condition on D6 (logs 11, 13). [R163; R164; 45_control_flow.md section 2 (R168); 92_eei_decisions.md
D1, D3, D4, D6, D8] -/
def Obligations.JifJumpsWhenZeroFlagSet : Prop :=
  DecodesBB 0x42 .jifII ∧
    DecodesBR 0x43 .jifIR ∧
    (∀ (s : State) (c o : Byte), ∃ t, exec (.jifII c o) s = .next t ∧
      AfterJump s t (if c = 1 ∧ (s.getReg r7).getLsbD 0 = true then s.ea o else s.pc + 3)) ∧
    (∀ (s : State) (c : Byte) (r : RegName), ∃ t, exec (.jifIR c r) s = .next t ∧
      AfterJump s t (if c = 1 ∧ (s.getReg r7).getLsbD 0 = true then s.ea (s.getReg r) else s.pc + 3))

/-- O59. For every operand and state JNI sets the pc to the effective address of the target when the condition
operand is exactly 1 and ZF is 0, and goes 3 bytes on otherwise, for 0 and for 2 to 255 alike; nothing else changes.
The length is D1, the page D3, the values 2 to 255 D8 (logs 8, 10, 14). The rejected REG byte rests on D4, the first
operand as the condition on D6 (logs 11, 13). [R165; R166; 45_control_flow.md section 2 (R168); 92_eei_decisions.md
D1, D3, D4, D6, D8] -/
def Obligations.JniJumpsWhenZeroFlagClear : Prop :=
  DecodesBB 0x44 .jniII ∧
    DecodesBR 0x45 .jniIR ∧
    (∀ (s : State) (c o : Byte), ∃ t, exec (.jniII c o) s = .next t ∧
      AfterJump s t (if c = 1 ∧ (s.getReg r7).getLsbD 0 = false then s.ea o else s.pc + 3)) ∧
    (∀ (s : State) (c : Byte) (r : RegName), ∃ t, exec (.jniIR c r) s = .next t ∧
      AfterJump s t (if c = 1 ∧ (s.getReg r7).getLsbD 0 = false then s.ea (s.getReg r) else s.pc + 3))

/-- O60. For every instruction, state and value v: DIS leaves disp holding its operand's value, every other
instruction leaves disp as it was, and from the same state but for v in disp every instruction answers the same
state, but for v in disp where the instruction is not DIS; the registers are outside it, so writing one leaves disp
alone; and a start state may hold any byte in disp. [R19] -/
def Obligations.DispIsWrittenByDisAndReadByNone : Prop :=
  (∀ (s : State) (imm : Byte), ∃ t, exec (.disI imm) s = .next t ∧ t.disp = imm) ∧
    (∀ (s : State) (r : RegName), ∃ t, exec (.disR r) s = .next t ∧ t.disp = s.getReg r) ∧
    (∀ (s : State) (a : Byte), ∃ t, exec (.disA a) s = .next t ∧ t.disp = (s.memRead (s.ea a)).1) ∧
    (∀ (i : Instr) (s t : State) (v : Byte), exec i s = .next t →
      (i.statement.mnemonic = .DIS → exec i { s with disp := v } = .next t) ∧
      (i.statement.mnemonic ≠ .DIS → t.disp = s.disp ∧ exec i { s with disp := v } = .next { t with disp := v })) ∧
    (∀ (s : State) (r : RegName) (v : Byte), (s.setReg r v).disp = s.disp) ∧
    ∀ (v : Byte) (regs : Vector Byte 8) (image : Memory), (State.start regs v image).disp = v
end

