-- ==== Sys2Proof/Laws/Decode.lean ====
section
/-!
SUPPORT. What reading a register operand and each format of the decoder do, said once for any opcode of that format.
-/
namespace Sys2Proof.Machine

/-! ## The REG operand byte (`30_encoding.md` R54) -/

theorem regOperand_number (op : Byte) (k : Slot) (r : RegName) :
    regOperand op k (BitVec.ofNat 8 r.val) = .ok r := by
  have h : (BitVec.ofNat 8 r.val).toNat = r.val := by
    rw [BitVec.toNat_ofNat]
    omega
  rw [regOperand, dif_pos (by rw [h]; exact r.isLt)]
  exact congrArg Except.ok (Fin.ext h)

theorem regOperand_beyond (op : Byte) (k : Slot) {b : Byte} (h : 7 < b.toNat) :
    regOperand op k b = .error (.illegalRegister op k b) :=
  dif_neg (by omega)

/-- Everything a REG operand byte can give. -/
theorem regOperand_cases (op : Byte) (k : Slot) (b : Byte) :
    (∃ r : RegName, b = regByte r ∧ regOperand op k b = .ok r) ∨
    (7 < b.toNat ∧ regOperand op k b = .error (.illegalRegister op k b)) := by
  rcases Nat.lt_or_ge b.toNat 8 with h | h
  · exact .inl ⟨⟨b.toNat, h⟩, by simp [regByte], dif_pos h⟩
  · exact .inr ⟨h, regOperand_beyond op k h⟩

/-! ## The formats (R53) -/

theorem decodesN_of_layout {op : Byte} {i : Instr} (h : layoutOf op = some (.N i)) : DecodesN op i := by
  intro rest
  simp only [decode, h, decodeOperands]

theorem decodesB_of_layout {op : Byte} {mk : Byte → Instr}
    (h : layoutOf op = some (.I mk) ∨ layoutOf op = some (.A mk)) : DecodesB op mk := by
  intro b rest
  rcases h with h | h <;> simp only [decode, h, decodeOperands]

theorem decodesBB_of_layout {op : Byte} {mk : Byte → Byte → Instr}
    (h : layoutOf op = some (.II mk) ∨ layoutOf op = some (.IA mk) ∨ layoutOf op = some (.AA mk)) :
    DecodesBB op mk := by
  intro b c rest
  rcases h with h | h | h <;> simp only [decode, h, decodeOperands]

theorem decodesR_of_layout {op : Byte} {mk : RegName → Instr} (h : layoutOf op = some (.R mk)) : DecodesR op mk := by
  constructor
  · intro r rest
    simp only [decode, h, decodeOperands, regOperand_number]
    rfl
  · intro b rest hb
    simp only [decode, h, decodeOperands, regOperand_beyond _ _ hb]
    rfl

theorem decodesRB_of_layout {op : Byte} {mk : RegName → Byte → Instr}
    (h : layoutOf op = some (.RI mk) ∨ layoutOf op = some (.RA mk)) : DecodesRB op mk := by
  constructor
  · intro r c rest
    rcases h with h | h <;> simp only [decode, h, decodeOperands, regOperand_number] <;> rfl
  · intro b c rest hb
    rcases h with h | h <;> simp only [decode, h, decodeOperands, regOperand_beyond _ _ hb] <;> rfl

theorem decodesBR_of_layout {op : Byte} {mk : Byte → RegName → Instr}
    (h : layoutOf op = some (.AR mk) ∨ layoutOf op = some (.IR mk)) : DecodesBR op mk := by
  constructor
  · intro b r rest
    rcases h with h | h <;> simp only [decode, h, decodeOperands, regOperand_number] <;> rfl
  · intro b c rest hc
    rcases h with h | h <;> simp only [decode, h, decodeOperands, regOperand_beyond _ _ hc] <;> rfl

theorem decodesRR_of_layout {op : Byte} {mk : RegName → RegName → Instr} (h : layoutOf op = some (.RR mk)) :
    DecodesRR op mk := by
  refine ⟨fun r q rest => ?_, fun b c rest hb => ?_, fun r c rest hc => ?_⟩
  · simp only [decode, h, decodeOperands, regOperand_number]
    rfl
  · simp only [decode, h, decodeOperands, regOperand_beyond _ _ hb]
  · simp only [decode, h, decodeOperands, regOperand_number, regOperand_beyond _ _ hc]
    rfl

end Sys2Proof.Machine
end

