-- ==== Sys2Proof/Laws/State.lean ====
section
/-!
SUPPORT. One lemma per field per update of State, true by rfl, so that no proof unfolds a record update; then what the
register and byte accessors see of each update.
-/
namespace Sys2Proof.Machine

/-- The state after `k` draws of the input controller: all that reading changes. -/
def State.draw (s : State) (k : Nat) : State :=
  { s with inputReads := s.inputReads + k }

/-! ## setReg -/

@[simp] theorem State.setReg_regs (s : State) (r : RegName) (v : Byte) : (s.setReg r v).regs = s.regs.set r.val v r.isLt := rfl
@[simp] theorem State.setReg_pc (s : State) (r : RegName) (v : Byte) : (s.setReg r v).pc = s.pc := rfl
@[simp] theorem State.setReg_mem (s : State) (r : RegName) (v : Byte) : (s.setReg r v).mem = s.mem := rfl
@[simp] theorem State.setReg_disp (s : State) (r : RegName) (v : Byte) : (s.setReg r v).disp = s.disp := rfl
@[simp] theorem State.setReg_run (s : State) (r : RegName) (v : Byte) : (s.setReg r v).run = s.run := rfl
@[simp] theorem State.setReg_trace (s : State) (r : RegName) (v : Byte) : (s.setReg r v).trace = s.trace := rfl
@[simp] theorem State.setReg_inputReads (s : State) (r : RegName) (v : Byte) : (s.setReg r v).inputReads = s.inputReads := rfl

/-! ## setZF -/

@[simp] theorem State.setZF_regs (s : State) (v : Byte) : (s.setZF v).regs = s.regs.set 7 ((s.getReg r7 &&& 0xFE) ||| zeroBit v) (by decide) := rfl
@[simp] theorem State.setZF_pc (s : State) (v : Byte) : (s.setZF v).pc = s.pc := rfl
@[simp] theorem State.setZF_mem (s : State) (v : Byte) : (s.setZF v).mem = s.mem := rfl
@[simp] theorem State.setZF_disp (s : State) (v : Byte) : (s.setZF v).disp = s.disp := rfl
@[simp] theorem State.setZF_run (s : State) (v : Byte) : (s.setZF v).run = s.run := rfl
@[simp] theorem State.setZF_trace (s : State) (v : Byte) : (s.setZF v).trace = s.trace := rfl
@[simp] theorem State.setZF_inputReads (s : State) (v : Byte) : (s.setZF v).inputReads = s.inputReads := rfl

/-! ## memWrite -/

@[simp] theorem State.memWrite_regs (s : State) (a : Addr) (v : Byte) : (s.memWrite a v).regs = s.regs := rfl
@[simp] theorem State.memWrite_pc (s : State) (a : Addr) (v : Byte) : (s.memWrite a v).pc = s.pc := rfl
@[simp] theorem State.memWrite_mem (s : State) (a : Addr) (v : Byte) : (s.memWrite a v).mem = if a = inputAddr then s.mem else s.mem.write a.toNat v := rfl
@[simp] theorem State.memWrite_disp (s : State) (a : Addr) (v : Byte) : (s.memWrite a v).disp = s.disp := rfl
@[simp] theorem State.memWrite_run (s : State) (a : Addr) (v : Byte) : (s.memWrite a v).run = s.run := rfl
@[simp] theorem State.memWrite_trace (s : State) (a : Addr) (v : Byte) : (s.memWrite a v).trace = s.trace := rfl
@[simp] theorem State.memWrite_inputReads (s : State) (a : Addr) (v : Byte) : (s.memWrite a v).inputReads = s.inputReads := rfl

/-! ## advance -/

@[simp] theorem State.advance_regs (s : State) (n : Nat) : (s.advance n).regs = s.regs := rfl
@[simp] theorem State.advance_pc (s : State) (n : Nat) : (s.advance n).pc = s.pc + BitVec.ofNat 12 n := rfl
@[simp] theorem State.advance_mem (s : State) (n : Nat) : (s.advance n).mem = s.mem := rfl
@[simp] theorem State.advance_disp (s : State) (n : Nat) : (s.advance n).disp = s.disp := rfl
@[simp] theorem State.advance_run (s : State) (n : Nat) : (s.advance n).run = s.run := rfl
@[simp] theorem State.advance_trace (s : State) (n : Nat) : (s.advance n).trace = s.trace := rfl
@[simp] theorem State.advance_inputReads (s : State) (n : Nat) : (s.advance n).inputReads = s.inputReads := rfl

/-! ## setPc -/

@[simp] theorem State.setPc_regs (s : State) (a : Addr) : (s.setPc a).regs = s.regs := rfl
@[simp] theorem State.setPc_pc (s : State) (a : Addr) : (s.setPc a).pc = a := rfl
@[simp] theorem State.setPc_mem (s : State) (a : Addr) : (s.setPc a).mem = s.mem := rfl
@[simp] theorem State.setPc_disp (s : State) (a : Addr) : (s.setPc a).disp = s.disp := rfl
@[simp] theorem State.setPc_run (s : State) (a : Addr) : (s.setPc a).run = s.run := rfl
@[simp] theorem State.setPc_trace (s : State) (a : Addr) : (s.setPc a).trace = s.trace := rfl
@[simp] theorem State.setPc_inputReads (s : State) (a : Addr) : (s.setPc a).inputReads = s.inputReads := rfl

/-! ## setDisp -/

@[simp] theorem State.setDisp_regs (s : State) (v : Byte) : (s.setDisp v).regs = s.regs := rfl
@[simp] theorem State.setDisp_pc (s : State) (v : Byte) : (s.setDisp v).pc = s.pc := rfl
@[simp] theorem State.setDisp_mem (s : State) (v : Byte) : (s.setDisp v).mem = s.mem := rfl
@[simp] theorem State.setDisp_disp (s : State) (v : Byte) : (s.setDisp v).disp = v := rfl
@[simp] theorem State.setDisp_run (s : State) (v : Byte) : (s.setDisp v).run = s.run := rfl
@[simp] theorem State.setDisp_trace (s : State) (v : Byte) : (s.setDisp v).trace = s.trace := rfl
@[simp] theorem State.setDisp_inputReads (s : State) (v : Byte) : (s.setDisp v).inputReads = s.inputReads := rfl

/-! ## emit -/

@[simp] theorem State.emit_regs (s : State) (e : Event) : (s.emit e).regs = s.regs := rfl
@[simp] theorem State.emit_pc (s : State) (e : Event) : (s.emit e).pc = s.pc := rfl
@[simp] theorem State.emit_mem (s : State) (e : Event) : (s.emit e).mem = s.mem := rfl
@[simp] theorem State.emit_disp (s : State) (e : Event) : (s.emit e).disp = s.disp := rfl
@[simp] theorem State.emit_run (s : State) (e : Event) : (s.emit e).run = s.run := rfl
@[simp] theorem State.emit_trace (s : State) (e : Event) : (s.emit e).trace = s.trace ++ [e] := rfl
@[simp] theorem State.emit_inputReads (s : State) (e : Event) : (s.emit e).inputReads = s.inputReads := rfl

/-! ## halt -/

@[simp] theorem State.halt_regs (s : State) : s.halt.regs = s.regs := rfl
@[simp] theorem State.halt_pc (s : State) : s.halt.pc = s.pc := rfl
@[simp] theorem State.halt_mem (s : State) : s.halt.mem = s.mem := rfl
@[simp] theorem State.halt_disp (s : State) : s.halt.disp = s.disp := rfl
@[simp] theorem State.halt_run (s : State) : s.halt.run = .halted := rfl
@[simp] theorem State.halt_trace (s : State) : s.halt.trace = s.trace := rfl
@[simp] theorem State.halt_inputReads (s : State) : s.halt.inputReads = s.inputReads := rfl

/-! ## raise -/

@[simp] theorem State.raise_regs (s : State) (f : Fault) : (s.raise f).regs = s.regs := rfl
@[simp] theorem State.raise_pc (s : State) (f : Fault) : (s.raise f).pc = s.pc := rfl
@[simp] theorem State.raise_mem (s : State) (f : Fault) : (s.raise f).mem = s.mem := rfl
@[simp] theorem State.raise_disp (s : State) (f : Fault) : (s.raise f).disp = s.disp := rfl
@[simp] theorem State.raise_run (s : State) (f : Fault) : (s.raise f).run = .faulted f := rfl
@[simp] theorem State.raise_trace (s : State) (f : Fault) : (s.raise f).trace = s.trace := rfl
@[simp] theorem State.raise_inputReads (s : State) (f : Fault) : (s.raise f).inputReads = s.inputReads := rfl

/-! ## draw -/

@[simp] theorem State.draw_regs (s : State) (k : Nat) : (s.draw k).regs = s.regs := rfl
@[simp] theorem State.draw_pc (s : State) (k : Nat) : (s.draw k).pc = s.pc := rfl
@[simp] theorem State.draw_mem (s : State) (k : Nat) : (s.draw k).mem = s.mem := rfl
@[simp] theorem State.draw_disp (s : State) (k : Nat) : (s.draw k).disp = s.disp := rfl
@[simp] theorem State.draw_run (s : State) (k : Nat) : (s.draw k).run = s.run := rfl
@[simp] theorem State.draw_trace (s : State) (k : Nat) : (s.draw k).trace = s.trace := rfl
@[simp] theorem State.draw_inputReads (s : State) (k : Nat) : (s.draw k).inputReads = s.inputReads + k := rfl

/-! ## The start state -/

@[simp] theorem State.start_regs (r : Vector Byte 8) (d : Byte) (m : Memory) : (State.start r d m).regs = r := rfl
@[simp] theorem State.start_pc (r : Vector Byte 8) (d : Byte) (m : Memory) : (State.start r d m).pc = 0x090 := rfl
@[simp] theorem State.start_mem (r : Vector Byte 8) (d : Byte) (m : Memory) : (State.start r d m).mem = m := rfl
@[simp] theorem State.start_disp (r : Vector Byte 8) (d : Byte) (m : Memory) : (State.start r d m).disp = d := rfl
@[simp] theorem State.start_run (r : Vector Byte 8) (d : Byte) (m : Memory) : (State.start r d m).run = .running := rfl
@[simp] theorem State.start_trace (r : Vector Byte 8) (d : Byte) (m : Memory) : (State.start r d m).trace = [] := rfl
@[simp] theorem State.start_inputReads (r : Vector Byte 8) (d : Byte) (m : Memory) :
    (State.start r d m).inputReads = 0 := rfl

/-! ## Registers -/

theorem State.getReg_of_regs {s t : State} (h : t.regs = s.regs) (r : RegName) : t.getReg r = s.getReg r := by
  unfold State.getReg
  rw [h]

@[simp] theorem State.getReg_setReg_same (s : State) (d : RegName) (v : Byte) : (s.setReg d v).getReg d = v := by
  simp [State.getReg]

theorem State.getReg_setReg_ne (s : State) {d r : RegName} (v : Byte) (h : r ≠ d) :
    (s.setReg d v).getReg r = s.getReg r := by
  have h' : d.val ≠ r.val := fun e => h (Fin.ext e.symm)
  simp [State.getReg, h']

theorem State.getReg_setReg (s : State) (d r : RegName) (v : Byte) :
    (s.setReg d v).getReg r = if r = d then v else s.getReg r := by
  split
  · next h => rw [h, State.getReg_setReg_same]
  · next h => exact s.getReg_setReg_ne v h

@[simp] theorem State.getReg_setZF_same (s : State) (v : Byte) :
    (s.setZF v).getReg r7 = withFlag (s.getReg r7) v := by
  unfold State.setZF
  rw [State.getReg_setReg_same]
  rfl

theorem State.getReg_setZF_ne (s : State) {r : RegName} (v : Byte) (h : r ≠ r7) :
    (s.setZF v).getReg r = s.getReg r :=
  s.getReg_setReg_ne _ h

@[simp] theorem State.getReg_memWrite (s : State) (a : Addr) (v : Byte) (r : RegName) :
    (s.memWrite a v).getReg r = s.getReg r := rfl
@[simp] theorem State.getReg_advance (s : State) (n : Nat) (r : RegName) : (s.advance n).getReg r = s.getReg r := rfl
@[simp] theorem State.getReg_setPc (s : State) (a : Addr) (r : RegName) : (s.setPc a).getReg r = s.getReg r := rfl
@[simp] theorem State.getReg_setDisp (s : State) (v : Byte) (r : RegName) : (s.setDisp v).getReg r = s.getReg r := rfl
@[simp] theorem State.getReg_emit (s : State) (e : Event) (r : RegName) : (s.emit e).getReg r = s.getReg r := rfl
@[simp] theorem State.getReg_halt (s : State) (r : RegName) : s.halt.getReg r = s.getReg r := rfl
@[simp] theorem State.getReg_raise (s : State) (f : Fault) (r : RegName) : (s.raise f).getReg r = s.getReg r := rfl
@[simp] theorem State.getReg_draw (s : State) (k : Nat) (r : RegName) : (s.draw k).getReg r = s.getReg r := rfl

/-! ## Memory bytes and effective addresses -/

theorem State.byteAt_of_mem {s t : State} (h : t.mem = s.mem) (a : Addr) : t.byteAt a = s.byteAt a := by
  unfold State.byteAt
  rw [h]

@[simp] theorem State.byteAt_setReg (s : State) (r : RegName) (v : Byte) (a : Addr) :
    (s.setReg r v).byteAt a = s.byteAt a := rfl
@[simp] theorem State.byteAt_setZF (s : State) (v : Byte) (a : Addr) : (s.setZF v).byteAt a = s.byteAt a := rfl
@[simp] theorem State.byteAt_advance (s : State) (n : Nat) (a : Addr) : (s.advance n).byteAt a = s.byteAt a := rfl
@[simp] theorem State.byteAt_setPc (s : State) (t a : Addr) : (s.setPc t).byteAt a = s.byteAt a := rfl
@[simp] theorem State.byteAt_setDisp (s : State) (v : Byte) (a : Addr) : (s.setDisp v).byteAt a = s.byteAt a := rfl
@[simp] theorem State.byteAt_emit (s : State) (e : Event) (a : Addr) : (s.emit e).byteAt a = s.byteAt a := rfl
@[simp] theorem State.byteAt_halt (s : State) (a : Addr) : s.halt.byteAt a = s.byteAt a := rfl
@[simp] theorem State.byteAt_raise (s : State) (f : Fault) (a : Addr) : (s.raise f).byteAt a = s.byteAt a := rfl
@[simp] theorem State.byteAt_draw (s : State) (k : Nat) (a : Addr) : (s.draw k).byteAt a = s.byteAt a := rfl

@[simp] theorem State.ea_draw (s : State) (k : Nat) (off : Byte) : (s.draw k).ea off = s.ea off := rfl
@[simp] theorem State.draw_zero (s : State) : s.draw 0 = s := rfl

theorem State.draw_draw (s : State) (j k : Nat) : (s.draw j).draw k = s.draw (j + k) := by
  simp [State.draw, Nat.add_assoc]

end Sys2Proof.Machine
end

