-- ==== Sys2Proof/Laws/Memory.lean ====
section
/-!
SUPPORT. The laws of memory: a read after a write, and that every memory operation keeps the canonical form.
-/
namespace Sys2Proof.Machine

/-! ## Reading what was written -/

theorem Memory.read_of_lt {m : Memory} {a : Nat} (h : ∀ c ∈ m, a < c.1) : m.read a = unlistedByte := by
  induction m with
  | nil => rfl
  | cons c m ih =>
    have hc : a < c.1 := h c (List.mem_cons_self ..)
    rw [Memory.read, if_neg (by omega)]
    exact ih fun d hd => h d (List.mem_cons_of_mem _ hd)

theorem Memory.read_write_ne (m : Memory) {a b : Nat} (v : Byte) (h : b ≠ a) : (m.write a v).read b = m.read b := by
  induction m with
  | nil =>
    rw [Memory.write]
    split
    · rfl
    · simp only [Memory.read, if_neg h]
  | cons c m ih =>
    obtain ⟨c1, c2⟩ := c
    rw [Memory.write]
    split
    · split
      · rfl
      · rw [Memory.read, if_neg h]
    · split
      · next hc =>
        have hb : b ≠ c1 := hc ▸ h
        split
        · rw [Memory.read, if_neg hb]
        · rw [Memory.read, Memory.read, if_neg h, if_neg hb]
      · rw [Memory.read, Memory.read, ih]

theorem Memory.read_write_same {m : Memory} (hm : m.Pairwise (fun c d => c.1 < d.1)) (a : Nat) (v : Byte) :
    (m.write a v).read a = v := by
  induction m with
  | nil =>
    rw [Memory.write]
    split
    · next h => exact h.symm
    · rw [Memory.read, if_pos rfl]
  | cons c m ih =>
    obtain ⟨c1, c2⟩ := c
    rw [List.pairwise_cons] at hm
    rw [Memory.write]
    split
    · next hlt =>
      split
      · next hv =>
        rw [hv]
        refine Memory.read_of_lt fun d hd => ?_
        rcases List.mem_cons.mp hd with rfl | hd
        · exact hlt
        · exact Nat.lt_trans hlt (hm.1 d hd)
      · rw [Memory.read, if_pos rfl]
    · split
      · next hc =>
        subst hc
        split
        · next hv =>
          rw [hv]
          exact Memory.read_of_lt hm.1
        · rw [Memory.read, if_pos rfl]
      · next hc =>
        rw [Memory.read, if_neg hc]
        exact ih hm.2

/-! ## The canonical form -/

theorem Memory.mem_write {m : Memory} {a : Nat} {v : Byte} {c : Host.Cell} (h : c ∈ m.write a v) :
    c ∈ m ∨ (c = (a, v) ∧ v ≠ unlistedByte) := by
  induction m with
  | nil =>
    rw [Memory.write] at h
    split at h
    · cases h
    · next hv => exact .inr ⟨List.mem_singleton.mp h, hv⟩
  | cons d m ih =>
    obtain ⟨d1, d2⟩ := d
    rw [Memory.write] at h
    split at h
    · split at h
      · exact .inl h
      · next hv =>
        rcases List.mem_cons.mp h with h | h
        · exact .inr ⟨h, hv⟩
        · exact .inl h
    · split at h
      · split at h
        · exact .inl (List.mem_cons_of_mem _ h)
        · next hv =>
          rcases List.mem_cons.mp h with h | h
          · exact .inr ⟨h, hv⟩
          · exact .inl (List.mem_cons_of_mem _ h)
      · rcases List.mem_cons.mp h with h | h
        · exact .inl (h ▸ List.mem_cons_self ..)
        · exact (ih h).imp_left (List.mem_cons_of_mem _)

theorem Memory.write_rising {m : Memory} (hm : m.Pairwise (fun c d => c.1 < d.1)) (a : Nat) (v : Byte) :
    (m.write a v).Pairwise (fun c d => c.1 < d.1) := by
  induction m with
  | nil =>
    rw [Memory.write]
    split
    · exact .nil
    · exact List.pairwise_singleton ..
  | cons d m ih =>
    obtain ⟨d1, d2⟩ := d
    have hd := List.pairwise_cons.mp hm
    rw [Memory.write]
    split
    · next hlt =>
      split
      · exact hm
      · refine List.pairwise_cons.mpr ⟨fun c hc => ?_, hm⟩
        rcases List.mem_cons.mp hc with rfl | hc
        · exact hlt
        · exact Nat.lt_trans hlt (hd.1 c hc)
    · split
      · next hc =>
        split
        · exact hd.2
        · exact List.pairwise_cons.mpr ⟨fun c h => hc ▸ hd.1 c h, hd.2⟩
      · next hlt hne =>
        refine List.pairwise_cons.mpr ⟨fun c hc => ?_, ih hd.2⟩
        rcases Memory.mem_write hc with hc | ⟨rfl, -⟩
        · exact hd.1 c hc
        · exact Nat.lt_of_le_of_ne (Nat.le_of_not_lt hlt) (Ne.symm hne)

/-- Writing a byte at one of the 4096 addresses other than the device's keeps the canonical form. -/
theorem Memory.write_wf {m : Memory} (hm : m.wf) {a : Nat} (v : Byte) (ha : a < 4096) (hd : a ≠ inputAddr.toNat) :
    (m.write a v).wf := by
  refine ⟨Memory.write_rising hm.1 a v, fun c hc => ?_⟩
  rcases Memory.mem_write hc with hc | ⟨rfl, hv⟩
  · exact hm.2 c hc
  · exact ⟨hv, ha, hd⟩

theorem Memory.nil_wf : Memory.wf [] :=
  ⟨.nil, fun _ h => absurd h List.not_mem_nil⟩

theorem State.memWrite_wf {s : State} (hs : s.mem.wf) (a : Addr) (v : Byte) : (s.memWrite a v).mem.wf := by
  rw [State.memWrite_mem]
  split
  · exact hs
  · next ha => exact Memory.write_wf hs v a.isLt fun h => ha (BitVec.eq_of_toNat_eq h)

theorem State.load_wf {s : State} (hs : s.mem.wf) (a : Addr) (bytes : List Byte) : (s.load a bytes).mem.wf := by
  induction bytes generalizing s a with
  | nil => exact hs
  | cons v vs ih => exact ih (State.memWrite_wf hs a v) (a + 1)

theorem State.withFetchWord_wf {s : State} (hs : s.mem.wf) (nbits w : Nat) : (s.withFetchWord nbits w).mem.wf :=
  State.load_wf hs s.pc (tableBytes nbits w)

/-! ## What a byte of the state is after a write -/

/-- A write leaves every other byte alone, and every byte when it is to the device (`20_memory.md` R34). -/
theorem State.byteAt_memWrite_ne (s : State) {a b : Addr} (v : Byte) (h : b ≠ a ∨ a = inputAddr) :
    (s.memWrite a v).byteAt b = s.byteAt b := by
  unfold State.byteAt
  rw [State.memWrite_mem]
  split
  · rfl
  · next ha =>
    have hb : b ≠ a := h.resolve_right ha
    exact Memory.read_write_ne s.mem v fun e => hb (BitVec.eq_of_toNat_eq e)

/-- A write to plain storage is read back (R33, R34). -/
theorem State.byteAt_memWrite_same {s : State} (hs : s.mem.wf) {a : Addr} (v : Byte) (ha : a ≠ inputAddr) :
    (s.memWrite a v).byteAt a = v := by
  unfold State.byteAt
  rw [State.memWrite_mem, if_neg ha]
  exact Memory.read_write_same hs.1 a.toNat v

end Sys2Proof.Machine
end

