-- ==== Sys2Proof/Laws/Ops.lean ====
section
/-!
SUPPORT. What each shared operation does, said once: reading, resolving a pointer, fetching, and each shape of
instruction. Proofs cite these and do not unfold the operations.
-/
namespace Sys2Proof.Machine

/-! ## Reading (`20_memory.md` R33, R35) -/

@[simp] theorem State.memRead_fst (s : State) (k : Nat) (a : Addr) : ((s.draw k).memRead a).1 = s.sees a k := rfl

@[simp] theorem State.memRead_snd (s : State) (k : Nat) (a : Addr) :
    ((s.draw k).memRead a).2 = s.draw (k + deviceReads a) := by
  unfold State.memRead State.draw deviceReads inputAddr
  split <;> rfl

/-- A read gives the byte seen and changes only the number of draws. -/
theorem State.memRead_eq (s : State) (a : Addr) : s.memRead a = (s.sees a 0, s.draw (deviceReads a)) := by
  have h1 := s.memRead_fst 0 a
  have h2 := s.memRead_snd 0 a
  rw [State.draw_zero] at h1 h2
  rw [Nat.zero_add] at h2
  exact Prod.ext h1 h2

theorem State.sees_draw (s : State) (j : Nat) (a : Addr) (k : Nat) : (s.draw j).sees a k = s.sees a (j + k) := by
  simp [State.sees, Nat.add_assoc]

/-- Away from the device a read sees the stored byte. -/
theorem State.sees_of_ne (s : State) {a : Addr} (h : a ≠ 0x080) (k : Nat) : s.sees a k = s.byteAt a :=
  if_neg h

theorem deviceReads_of_ne {a : Addr} (h : a ≠ 0x080) : deviceReads a = 0 :=
  if_neg h

/-! ## Operand forms (R32) -/

/-- The memory-indirect form: the pointer byte is read in the active page, and names a byte of the same page. -/
theorem viaMem_eq (a : Byte) (s : State) :
    viaMem a s = (.mem (s.ea (s.sees (s.ea a) 0)), s.draw (deviceReads (s.ea a))) := by
  unfold viaMem
  simp only [State.memRead_eq]

/-! The address each form that names a memory byte gives. -/

@[simp] theorem direct_address (a : Byte) (s : State) : (direct a s).address? = some (s.ea a) := rfl
@[simp] theorem viaReg_address (p : RegName) (s : State) : (viaReg p s).address? = some (s.ea (s.getReg p)) := rfl
@[simp] theorem viaMem_address (a : Byte) (s : State) :
    (viaMem a s).1.address? = some (s.ea (s.sees (s.ea a) 0)) := rfl

/-- Reading a memory byte, by whatever form. -/
theorem readPlace_mem (s : State) (k : Nat) (a : Addr) :
    readPlace (.mem a) (s.draw k) = (s.sees a k, s.draw (k + deviceReads a)) :=
  Prod.ext (s.memRead_fst k a) (s.memRead_snd k a)

theorem readSource_mem (s : State) (k : Nat) (a : Addr) :
    readSource (.place (.mem a)) (s.draw k) = (s.sees a k, s.draw (k + deviceReads a)) :=
  readPlace_mem s k a

/-! ## The shapes of the instructions -/

/-- A flag-setting instruction that ends in a register write (`00_scope.md` R7; `10_state.md` R15). -/
theorem retire_reg (s : State) (d : RegName) (v : Byte) (n k : Nat) :
    AfterRegister s (retire (.reg d) v v n (s.draw k)) d v n k where
  destination hd := by
    rw [retire, State.getReg_advance, State.getReg_setZF_ne _ _ hd]
    exact State.getReg_setReg_same ..
  others r hd h7 := by
    rw [retire, State.getReg_advance, State.getReg_setZF_ne _ _ h7]
    exact State.getReg_setReg_ne _ _ hd
  control := by
    rw [retire, State.getReg_advance, State.getReg_setZF_same, writePlace, State.getReg_setReg, State.getReg_draw]
    congr 1
    split
    · next h => rw [if_pos h.symm]
    · next h => rw [if_neg (Ne.symm h)]
  pc := rfl
  memory _ := rfl
  disp := rfl
  run := rfl
  trace := rfl
  draws := rfl

/-- A flag-setting instruction that ends in a store (R34: to 0x080 it is dropped). -/
theorem retire_mem {s : State} (hs : s.mem.wf) (a : Addr) (v z : Byte) (n k : Nat) :
    AfterStore s (retire (.mem a) v z n (s.draw k)) a v z n k where
  stored ha := State.byteAt_memWrite_same (s := s.draw k) hs v ha
  memory b hb := State.byteAt_memWrite_ne (s.draw k) v (by
    rcases hb with hb | rfl
    · exact .inl hb
    · exact (Decidable.em (a = inputAddr)).elim .inr fun h => .inl (Ne.symm h))
  registers r hr := by
    rw [retire, State.getReg_advance, State.getReg_setZF_ne _ _ hr]
    rfl
  control := by
    rw [retire, State.getReg_advance, State.getReg_setZF_same]
    rfl
  pc := rfl
  disp := rfl
  run := rfl
  trace := rfl
  draws := rfl

/-- An instruction that sends an event and changes nothing else (`41_io_system.md` R94). -/
theorem emit_after (s : State) (e : Event) (n k : Nat) :
    AfterEvent s (((s.draw k).emit e).advance n) e s.disp n k where
  trace := rfl
  disp := rfl
  registers _ := rfl
  pc := rfl
  memory _ := rfl
  run := rfl
  draws := rfl

/-- An instruction that sets the display register and sends it (R90 to R92). -/
theorem display_after (s : State) (v : Byte) (n k : Nat) :
    AfterEvent s ((((s.draw k).setDisp v).emit (.disp v)).advance n) (.disp v) v n k where
  trace := rfl
  disp := rfl
  registers _ := rfl
  pc := rfl
  memory _ := rfl
  run := rfl
  draws := rfl

/-- A jump, taken or not (`45_control_flow.md` R160). -/
theorem branch_after (s : State) (taken : Bool) (t : Byte) (n : Nat) :
    AfterJump s (branch taken t n s) (if taken then s.ea t else s.pc + BitVec.ofNat 12 n) where
  pc := rfl
  registers _ := rfl
  memory _ := rfl
  disp := rfl
  run := rfl
  trace := rfl
  draws := rfl

/-! ## Fetching (`10_state.md` R17) -/

theorem fetchBytes_length (n : Nat) (a : Addr) (s : State) : (fetchBytes n a s).1.length = n := by
  induction n generalizing a s with
  | zero => rfl
  | succ n ih => exact congrArg (· + 1) (ih (a + 1) (s.memRead a).2)

theorem next_address (a : Addr) (n : Nat) : a + BitVec.ofNat 12 (n + 1) = a + 1 + BitVec.ofNat 12 n := by
  rw [BitVec.add_assoc, Nat.add_comm n 1, BitVec.ofNat_add]
  rfl

theorem deviceReadsFrom_succ_left (a : Addr) (n : Nat) :
    deviceReadsFrom a (n + 1) = deviceReads a + deviceReadsFrom (a + 1) n := by
  induction n with
  | zero => simp [deviceReadsFrom]
  | succ n ih => rw [deviceReadsFrom, ih, next_address, deviceReadsFrom, Nat.add_assoc]

/-- The bytes of a fetch, each as a read of its address sees it after the draws before it, and the draws made. -/
theorem fetchBytes_eq (n : Nat) (a : Addr) (s : State) (j : Nat) :
    fetchBytes n a (s.draw j) =
      ((List.range n).map (fun k => s.sees (a + BitVec.ofNat 12 k) (j + deviceReadsFrom a k)),
        s.draw (j + deviceReadsFrom a n)) := by
  induction n generalizing a j with
  | zero => rfl
  | succ n ih =>
    simp only [fetchBytes, State.memRead_fst, State.memRead_snd, ih, List.range_succ_eq_map, List.map_cons,
      List.map_map, deviceReadsFrom_succ_left, Nat.add_assoc, Function.comp_def, Nat.succ_eq_add_one, next_address]
    simp [deviceReadsFrom]

/-- Fetching changes only the number of draws. -/
theorem fetchBytes_snd (n : Nat) (a : Addr) (s : State) : ∃ k, (fetchBytes n a s).2 = s.draw k := by
  induction n generalizing a s with
  | zero => exact ⟨0, rfl⟩
  | succ n ih =>
    obtain ⟨k, hk⟩ := ih (a + 1) (s.memRead a).2
    refine ⟨deviceReads a + k, ?_⟩
    rw [fetchBytes, hk, State.memRead_eq, State.draw_draw]

theorem fetch_snd (s : State) : ∃ k, (fetch s).2 = s.draw k := by
  obtain ⟨k, hk⟩ := fetchBytes_snd (operandCount (s.memRead s.pc).1) (s.pc + 1) (s.memRead s.pc).2
  refine ⟨deviceReads s.pc + k, ?_⟩
  rw [fetch, hk, State.memRead_eq, State.draw_draw]

/-! ## Stepping -/

/-- Everything a step can do. -/
theorem step_cases (s : State) :
    (∃ i rest k, s.run = .running ∧ decode (fetch s).1 = .ok (i, rest) ∧ (fetch s).2 = s.draw k ∧
      step s = exec i (s.draw k)) ∨
    (∃ e, s.run = .running ∧ decode (fetch s).1 = .error e ∧ step s = .next (s.raise (faultOf s.pc e))) ∨
    (s.run = .halted ∧ step s = .next s) ∨
    ∃ f, s.run = .faulted f ∧ step s = .fault f := by
  rcases hr : s.run with _ | _ | f
  · rcases hd : decode (fetch s).1 with e | ⟨i, rest⟩
    · exact .inr (.inl ⟨e, rfl, rfl, by simp only [step, hr, hd, rejected]⟩)
    · obtain ⟨k, hk⟩ := fetch_snd s
      exact .inl ⟨i, rest, k, rfl, rfl, hk, by simp only [step, hr, hd, hk]⟩
  · exact .inr (.inr (.inl ⟨rfl, by simp only [step, hr, afterHalt]⟩))
  · exact .inr (.inr (.inr ⟨f, rfl, by simp only [step, hr, afterFault]⟩))

end Sys2Proof.Machine
end

