-- ==== Sys2Proof/Laws/PerInstr.lean ====
section
/-!
SUPPORT. A law of each instruction as it is written: the statement that writes it is well-formed, and the assembler,
which looks its opcode up by mnemonic and operand types, gives the bytes of the encoder (`30_encoding.md` R52, R56, R60).
-/
namespace Sys2Proof.Laws.Assembles

/-- The instruction is well-formed, and its statement assembles to its encoding. -/
def Statement (i : Instr) : Prop :=
  i.wellFormed = true ∧ assemble i.statement = some (encode i)

theorem reg_inRange (r : RegName) : (AsmOperand.reg r.val).inRange = true := decide_eq_true r.isLt
theorem imm_inRange (v : Byte) : (AsmOperand.imm v.toNat).inRange = true := decide_eq_true v.isLt
theorem addr_inRange (v : Byte) : (AsmOperand.addr v.toNat).inRange = true := decide_eq_true v.isLt

theorem all_inRange1 {a : AsmOperand} (ha : a.inRange = true) : [a].all AsmOperand.inRange = true := by
  rw [List.all_cons, ha]
  rfl

theorem all_inRange2 {a b : AsmOperand} (ha : a.inRange = true) (hb : b.inRange = true) :
    [a, b].all AsmOperand.inRange = true := by
  rw [List.all_cons, ha, all_inRange1 hb]
  rfl

theorem regByte_eq (r : RegName) : BitVec.ofNat 8 r.val = regByte r := rfl
theorem byte_eq (v : Byte) : BitVec.ofNat 8 v.toNat = v := by simp

theorem bytes1 {op a a' : Byte} (ha : a = a') : [op, a] = [op, a'] := by rw [ha]
theorem bytes2 {op a a' b b' : Byte} (ha : a = a') (hb : b = b') : [op, a, b] = [op, a', b'] := by rw [ha, hb]

/-- What the law needs of one instruction: its form in the map, its operands in range, and their bytes. -/
theorem of_form {i : Instr} {ts : List OperandType} {op : Byte}
    (hts : i.statement.operands.mapM AsmOperand.type? = some ts) (hop : opcodeOf i.statement.mnemonic ts = some op)
    (hr : i.statement.operands.all AsmOperand.inRange = true)
    (hb : op :: i.statement.operands.map AsmOperand.byte = encode i) : Statement i := by
  have hw : i.statement.wellFormed = true := by
    simp only [AsmStatement.wellFormed, AsmStatement.hasForm, hts, hop, hr, Option.isSome_some, Bool.and_self]
  refine ⟨hw, ?_⟩
  simp only [assemble, hw, if_true, hts, hop, Option.map_some, hb]

theorem disI (imm : Byte) : Statement (.disI imm) :=
  of_form rfl rfl (all_inRange1 (imm_inRange imm)) (bytes1 (byte_eq imm))
theorem disR (s : RegName) : Statement (.disR s) :=
  of_form rfl rfl (all_inRange1 (reg_inRange s)) (bytes1 (regByte_eq s))
theorem disA (a : Byte) : Statement (.disA a) := of_form rfl rfl (all_inRange1 (addr_inRange a)) (bytes1 (byte_eq a))
theorem inR (d : RegName) : Statement (.inR d) :=
  of_form rfl rfl (all_inRange1 (reg_inRange d)) (bytes1 (regByte_eq d))
theorem outII (port v : Byte) : Statement (.outII port v) :=
  of_form rfl rfl (all_inRange2 (imm_inRange port) (imm_inRange v)) (bytes2 (byte_eq port) (byte_eq v))
theorem outIR (port : Byte) (s : RegName) : Statement (.outIR port s) :=
  of_form rfl rfl (all_inRange2 (imm_inRange port) (reg_inRange s)) (bytes2 (byte_eq port) (regByte_eq s))
theorem outIA (port a : Byte) : Statement (.outIA port a) :=
  of_form rfl rfl (all_inRange2 (imm_inRange port) (addr_inRange a)) (bytes2 (byte_eq port) (byte_eq a))
theorem brk : Statement .brk := of_form rfl rfl rfl rfl
theorem movRI (d : RegName) (imm : Byte) : Statement (.movRI d imm) :=
  of_form rfl rfl (all_inRange2 (reg_inRange d) (imm_inRange imm)) (bytes2 (regByte_eq d) (byte_eq imm))
theorem movAR (a : Byte) (s : RegName) : Statement (.movAR a s) :=
  of_form rfl rfl (all_inRange2 (addr_inRange a) (reg_inRange s)) (bytes2 (byte_eq a) (regByte_eq s))
theorem movRA (d : RegName) (a : Byte) : Statement (.movRA d a) :=
  of_form rfl rfl (all_inRange2 (reg_inRange d) (addr_inRange a)) (bytes2 (regByte_eq d) (byte_eq a))
theorem movRR (d s : RegName) : Statement (.movRR d s) :=
  of_form rfl rfl (all_inRange2 (reg_inRange d) (reg_inRange s)) (bytes2 (regByte_eq d) (regByte_eq s))
theorem shw : Statement .shw := of_form rfl rfl rfl rfl
theorem clsI (colour : Byte) : Statement (.clsI colour) :=
  of_form rfl rfl (all_inRange1 (imm_inRange colour)) (bytes1 (byte_eq colour))
theorem sblR (r : RegName) : Statement (.sblR r) :=
  of_form rfl rfl (all_inRange1 (reg_inRange r)) (bytes1 (regByte_eq r))
theorem sblA (a : Byte) : Statement (.sblA a) := of_form rfl rfl (all_inRange1 (addr_inRange a)) (bytes1 (byte_eq a))
theorem sbrR (r : RegName) : Statement (.sbrR r) :=
  of_form rfl rfl (all_inRange1 (reg_inRange r)) (bytes1 (regByte_eq r))
theorem sbrA (a : Byte) : Statement (.sbrA a) := of_form rfl rfl (all_inRange1 (addr_inRange a)) (bytes1 (byte_eq a))
theorem rblR (r : RegName) : Statement (.rblR r) :=
  of_form rfl rfl (all_inRange1 (reg_inRange r)) (bytes1 (regByte_eq r))
theorem rblA (a : Byte) : Statement (.rblA a) := of_form rfl rfl (all_inRange1 (addr_inRange a)) (bytes1 (byte_eq a))
theorem rbrR (r : RegName) : Statement (.rbrR r) :=
  of_form rfl rfl (all_inRange1 (reg_inRange r)) (bytes1 (regByte_eq r))
theorem rbrA (a : Byte) : Statement (.rbrA a) := of_form rfl rfl (all_inRange1 (addr_inRange a)) (bytes1 (byte_eq a))
theorem andRI (d : RegName) (imm : Byte) : Statement (.andRI d imm) :=
  of_form rfl rfl (all_inRange2 (reg_inRange d) (imm_inRange imm)) (bytes2 (regByte_eq d) (byte_eq imm))
theorem andAR (a : Byte) (s : RegName) : Statement (.andAR a s) :=
  of_form rfl rfl (all_inRange2 (addr_inRange a) (reg_inRange s)) (bytes2 (byte_eq a) (regByte_eq s))
theorem andRA (d : RegName) (a : Byte) : Statement (.andRA d a) :=
  of_form rfl rfl (all_inRange2 (reg_inRange d) (addr_inRange a)) (bytes2 (regByte_eq d) (byte_eq a))
theorem andRR (d s : RegName) : Statement (.andRR d s) :=
  of_form rfl rfl (all_inRange2 (reg_inRange d) (reg_inRange s)) (bytes2 (regByte_eq d) (regByte_eq s))
theorem orRI (d : RegName) (imm : Byte) : Statement (.orRI d imm) :=
  of_form rfl rfl (all_inRange2 (reg_inRange d) (imm_inRange imm)) (bytes2 (regByte_eq d) (byte_eq imm))
theorem orAR (a : Byte) (s : RegName) : Statement (.orAR a s) :=
  of_form rfl rfl (all_inRange2 (addr_inRange a) (reg_inRange s)) (bytes2 (byte_eq a) (regByte_eq s))
theorem orRA (d : RegName) (a : Byte) : Statement (.orRA d a) :=
  of_form rfl rfl (all_inRange2 (reg_inRange d) (addr_inRange a)) (bytes2 (regByte_eq d) (byte_eq a))
theorem orRR (d s : RegName) : Statement (.orRR d s) :=
  of_form rfl rfl (all_inRange2 (reg_inRange d) (reg_inRange s)) (bytes2 (regByte_eq d) (regByte_eq s))
theorem xorRI (d : RegName) (imm : Byte) : Statement (.xorRI d imm) :=
  of_form rfl rfl (all_inRange2 (reg_inRange d) (imm_inRange imm)) (bytes2 (regByte_eq d) (byte_eq imm))
theorem xorAR (a : Byte) (s : RegName) : Statement (.xorAR a s) :=
  of_form rfl rfl (all_inRange2 (addr_inRange a) (reg_inRange s)) (bytes2 (byte_eq a) (regByte_eq s))
theorem xorRA (d : RegName) (a : Byte) : Statement (.xorRA d a) :=
  of_form rfl rfl (all_inRange2 (reg_inRange d) (addr_inRange a)) (bytes2 (regByte_eq d) (byte_eq a))
theorem xorRR (d s : RegName) : Statement (.xorRR d s) :=
  of_form rfl rfl (all_inRange2 (reg_inRange d) (reg_inRange s)) (bytes2 (regByte_eq d) (regByte_eq s))
theorem notR (r : RegName) : Statement (.notR r) :=
  of_form rfl rfl (all_inRange1 (reg_inRange r)) (bytes1 (regByte_eq r))
theorem notA (a : Byte) : Statement (.notA a) := of_form rfl rfl (all_inRange1 (addr_inRange a)) (bytes1 (byte_eq a))
theorem addRI (d : RegName) (imm : Byte) : Statement (.addRI d imm) :=
  of_form rfl rfl (all_inRange2 (reg_inRange d) (imm_inRange imm)) (bytes2 (regByte_eq d) (byte_eq imm))
theorem addAR (a : Byte) (s : RegName) : Statement (.addAR a s) :=
  of_form rfl rfl (all_inRange2 (addr_inRange a) (reg_inRange s)) (bytes2 (byte_eq a) (regByte_eq s))
theorem addRA (d : RegName) (a : Byte) : Statement (.addRA d a) :=
  of_form rfl rfl (all_inRange2 (reg_inRange d) (addr_inRange a)) (bytes2 (regByte_eq d) (byte_eq a))
theorem addRR (d s : RegName) : Statement (.addRR d s) :=
  of_form rfl rfl (all_inRange2 (reg_inRange d) (reg_inRange s)) (bytes2 (regByte_eq d) (regByte_eq s))
theorem subRI (d : RegName) (imm : Byte) : Statement (.subRI d imm) :=
  of_form rfl rfl (all_inRange2 (reg_inRange d) (imm_inRange imm)) (bytes2 (regByte_eq d) (byte_eq imm))
theorem subAR (a : Byte) (s : RegName) : Statement (.subAR a s) :=
  of_form rfl rfl (all_inRange2 (addr_inRange a) (reg_inRange s)) (bytes2 (byte_eq a) (regByte_eq s))
theorem subRA (d : RegName) (a : Byte) : Statement (.subRA d a) :=
  of_form rfl rfl (all_inRange2 (reg_inRange d) (addr_inRange a)) (bytes2 (regByte_eq d) (byte_eq a))
theorem subRR (d s : RegName) : Statement (.subRR d s) :=
  of_form rfl rfl (all_inRange2 (reg_inRange d) (reg_inRange s)) (bytes2 (regByte_eq d) (regByte_eq s))
theorem incR (r : RegName) : Statement (.incR r) :=
  of_form rfl rfl (all_inRange1 (reg_inRange r)) (bytes1 (regByte_eq r))
theorem incA (a : Byte) : Statement (.incA a) := of_form rfl rfl (all_inRange1 (addr_inRange a)) (bytes1 (byte_eq a))
theorem decR (r : RegName) : Statement (.decR r) :=
  of_form rfl rfl (all_inRange1 (reg_inRange r)) (bytes1 (regByte_eq r))
theorem decA (a : Byte) : Statement (.decA a) := of_form rfl rfl (all_inRange1 (addr_inRange a)) (bytes1 (byte_eq a))
theorem jmpI (t : Byte) : Statement (.jmpI t) := of_form rfl rfl (all_inRange1 (imm_inRange t)) (bytes1 (byte_eq t))
theorem jmpR (r : RegName) : Statement (.jmpR r) :=
  of_form rfl rfl (all_inRange1 (reg_inRange r)) (bytes1 (regByte_eq r))
theorem jifII (c t : Byte) : Statement (.jifII c t) :=
  of_form rfl rfl (all_inRange2 (imm_inRange c) (imm_inRange t)) (bytes2 (byte_eq c) (byte_eq t))
theorem jifIR (c : Byte) (r : RegName) : Statement (.jifIR c r) :=
  of_form rfl rfl (all_inRange2 (imm_inRange c) (reg_inRange r)) (bytes2 (byte_eq c) (regByte_eq r))
theorem jniII (c t : Byte) : Statement (.jniII c t) :=
  of_form rfl rfl (all_inRange2 (imm_inRange c) (imm_inRange t)) (bytes2 (byte_eq c) (byte_eq t))
theorem jniIR (c : Byte) (r : RegName) : Statement (.jniIR c r) :=
  of_form rfl rfl (all_inRange2 (imm_inRange c) (reg_inRange r)) (bytes2 (byte_eq c) (regByte_eq r))
theorem milRI (p : RegName) (imm : Byte) : Statement (.milRI p imm) :=
  of_form rfl rfl (all_inRange2 (reg_inRange p) (imm_inRange imm)) (bytes2 (regByte_eq p) (byte_eq imm))
theorem milRR (p s : RegName) : Statement (.milRR p s) :=
  of_form rfl rfl (all_inRange2 (reg_inRange p) (reg_inRange s)) (bytes2 (regByte_eq p) (regByte_eq s))
theorem milRA (p : RegName) (a : Byte) : Statement (.milRA p a) :=
  of_form rfl rfl (all_inRange2 (reg_inRange p) (addr_inRange a)) (bytes2 (regByte_eq p) (byte_eq a))
theorem milAR (a : Byte) (s : RegName) : Statement (.milAR a s) :=
  of_form rfl rfl (all_inRange2 (addr_inRange a) (reg_inRange s)) (bytes2 (byte_eq a) (regByte_eq s))
theorem mfiRR (d p : RegName) : Statement (.mfiRR d p) :=
  of_form rfl rfl (all_inRange2 (reg_inRange d) (reg_inRange p)) (bytes2 (regByte_eq d) (regByte_eq p))
theorem mfiRA (d : RegName) (a : Byte) : Statement (.mfiRA d a) :=
  of_form rfl rfl (all_inRange2 (reg_inRange d) (addr_inRange a)) (bytes2 (regByte_eq d) (byte_eq a))
theorem mfiAR (a : Byte) (p : RegName) : Statement (.mfiAR a p) :=
  of_form rfl rfl (all_inRange2 (addr_inRange a) (reg_inRange p)) (bytes2 (byte_eq a) (regByte_eq p))
theorem mfiAA (a1 a2 : Byte) : Statement (.mfiAA a1 a2) :=
  of_form rfl rfl (all_inRange2 (addr_inRange a1) (addr_inRange a2)) (bytes2 (byte_eq a1) (byte_eq a2))

end Sys2Proof.Laws.Assembles
end

