-- ==== Sys2Proof/Tests/Slice0.lean ====
section
/-!
SUPPORT. The model's own tests, each about one step or one decode, with its expected result taken from the spec (the
rules' examples, `95_test_vectors.md`); then one witness for each statement of `Obligations.lean` that has hypotheses.
-/
namespace Sys2Proof.Machine.Tests

/-! ## The state S0 of `95_test_vectors.md` section 2 -/

/-- S0. Its `disp` is unknown there; 0xEE is told apart from every value a row shows. -/
def s0 : State where
  regs := #v[0x20, 0x00, 0xFF, 0x80, 0x01, 0x30, 0x7F, 0x10]
  pc := 0x090
  mem := [(0x100, 0xAA), (0x120, 0x30), (0x130, 0x55), (0x17F, 0x20), (0x180, 0x99), (0x1FF, 0x01)]
  disp := 0xEE
  run := .running
  trace := []
  inputReads := 0

/-- S0 with R7 zero: page 0, where offset 0x80 is the input controller. -/
def s0page0 : State := s0.setReg 7 0x00

/-- What one step from `s` gives, with `bytes` placed at the pc. -/
def after {α : Type} (s : State) (bytes : List Byte) (f : State → α) : Option α :=
  match step (s.load s.pc bytes) with
  | .next t => some (f t)
  | .fault _ => none
  | .refused _ => none

/-! ## Well-formed and ill-formed statements (`30_encoding.md` R54, R55, R59, R60) -/

theorem test_wellFormed_form :
    AsmStatement.wellFormed ⟨.MOV, [.addr 0x40, .reg 3]⟩ = true ∧
    AsmStatement.wellFormed ⟨.MOV, [.addr 0x40, .imm 3]⟩ = false ∧
    AsmStatement.wellFormed ⟨.IN, [.imm 3]⟩ = false ∧
    AsmStatement.wellFormed ⟨.BRK, [.reg 0]⟩ = false ∧
    AsmStatement.wellFormed ⟨.ADD, [.reg 0, .reg 1, .reg 2]⟩ = false := by
  decide

theorem test_wellFormed_label :
    AsmStatement.wellFormed ⟨.JMP, [.imm 0x96]⟩ = true ∧
    AsmStatement.wellFormed ⟨.JMP, [.label ['l', 'o', 'o', 'p']]⟩ = false := by
  decide

theorem test_wellFormed_register :
    AsmStatement.wellFormed ⟨.INC, [.reg 7]⟩ = true ∧ AsmStatement.wellFormed ⟨.INC, [.reg 8]⟩ = false := by
  decide

theorem test_wellFormed_immediate :
    AsmStatement.wellFormed ⟨.DIS, [.imm 255]⟩ = true ∧ AsmStatement.wellFormed ⟨.DIS, [.imm 256]⟩ = false := by
  decide

theorem test_wellFormed_offset :
    AsmStatement.wellFormed ⟨.DIS, [.addr 255]⟩ = true ∧ AsmStatement.wellFormed ⟨.DIS, [.addr 256]⟩ = false := by
  decide

theorem test_wellFormed_instruction : Instr.wellFormed (.movRI 7 0xFF) = true ∧ Instr.wellFormed .brk = true := by
  decide

theorem test_assemble :
    assemble ⟨.MFI, [.addr 0x11, .addr 0xC0]⟩ = some [0x57, 0x11, 0xC0] ∧
    assemble ⟨.MFI, [.addr 0x11, .imm 0xC0]⟩ = none := by
  decide

theorem test_operand_syntax :
    operandOf ['R', '7'] = some (.reg 7) ∧
    operandOf ['R', '8'] = none ∧
    operandOf ['$', '(', '2', '5', '5', ')'] = some (.imm 255) ∧
    operandOf ['$', '(', '0', 'x', '2', 'a', ')'] = some (.imm 0x2A) ∧
    operandOf ['[', '0', 'b', '1', '0', '1', ']'] = some (.addr 5) ∧
    operandOf ['#', '[', 'l', 'o', 'o', 'p', ']'] = some (.label ['l', 'o', 'o', 'p']) ∧
    operandOf ['$', '1'] = none := by
  decide

theorem test_statement_syntax :
    statementOf ['M', 'O', 'V', ' ', 'R', '2', ',', ' ', '$', '(', '0', 'x', '2', 'A', ')'] =
      some ⟨.MOV, [.reg 2, .imm 0x2A]⟩ ∧
    statementOf ['B', 'R', 'K'] = some ⟨.BRK, []⟩ ∧
    statementOf ['N', 'O', 'P'] = none := by
  decide

/-- The model's own reading of spaces and commas (log 22): spaces are dropped at the ends of an operand and refused
inside it; a comma separates, in a label's name too. -/
theorem test_spaces_and_commas :
    statementOf ['O', 'R', ' ', ' ', 'R', '1', ' ', ',', 'R', '2', ' '] = some ⟨.OR, [.reg 1, .reg 2]⟩ ∧
    statementOf ['I', 'N', 'C', ' ', 'R', ' ', '2'] = none ∧
    statementOf ['D', 'I', 'S', ' ', '$', '(', '1', ' ', '2', ')'] = none ∧
    statementOf ['J', 'M', 'P', ' ', '#', '[', 'a', ',', 'b', ']'] = none := by
  decide

/-! ## Decoding: the bytes each rule writes out for its example -/

/-- The example of each rule of `40_data_transfer.md`. -/
theorem test_decode_moves :
    ∀ row ∈ ([
        ([0x10, 0x02, 0x2A], .movRI 2 0x2A),
        ([0x11, 0x40, 0x03], .movAR 0x40 3),
        ([0x12, 0x00, 0xA0], .movRA 0 0xA0),
        ([0x13, 0x04, 0x01], .movRR 4 1),
        ([0x50, 0x01, 0xFF], .milRI 1 0xFF),
        ([0x51, 0x00, 0x02], .milRR 0 2),
        ([0x52, 0x05, 0xB0], .milRA 5 0xB0),
        ([0x53, 0xC0, 0x06], .milAR 0xC0 6),
        ([0x54, 0x00, 0x01], .mfiRR 0 1),
        ([0x55, 0x03, 0xC0], .mfiRA 3 0xC0),
        ([0x56, 0x10, 0x02], .mfiAR 0x10 2),
        ([0x57, 0x11, 0xC0], .mfiAA 0x11 0xC0)] : List (List Byte × Instr)),
      decode row.1 = .ok (row.2, []) := by
  decide

/-- The example of each rule of `41_io_system.md`. -/
theorem test_decode_io :
    ∀ row ∈ ([
        ([0x01, 0x42], .disI 0x42),
        ([0x02, 0x03], .disR 3),
        ([0x03, 0xA0], .disA 0xA0),
        ([0x04, 0x00], .inR 0),
        ([0x05, 0x01, 0xFF], .outII 0x01 0xFF),
        ([0x06, 0x03, 0x02], .outIR 0x03 2),
        ([0x07, 0x00, 0xA0], .outIA 0x00 0xA0),
        ([0x0F], .brk),
        ([0x14], .shw),
        ([0x15, 0x00], .clsI 0x00)] : List (List Byte × Instr)),
      decode row.1 = .ok (row.2, []) := by
  decide

/-- The example of each rule of `42_shift_rotate.md`. -/
theorem test_decode_shifts :
    ∀ row ∈ ([
        ([0x18, 0x01], .sblR 1),
        ([0x19, 0xA0], .sblA 0xA0),
        ([0x1A, 0x02], .sbrR 2),
        ([0x1B, 0xA0], .sbrA 0xA0),
        ([0x1C, 0x00], .rblR 0),
        ([0x1D, 0xA0], .rblA 0xA0),
        ([0x1E, 0x04], .rbrR 4),
        ([0x1F, 0xA0], .rbrA 0xA0)] : List (List Byte × Instr)),
      decode row.1 = .ok (row.2, []) := by
  decide

/-- The example of each rule of `43_logical.md`. -/
theorem test_decode_logical :
    ∀ row ∈ ([
        ([0x20, 0x01, 0x0F], .andRI 1 0x0F),
        ([0x21, 0xA0, 0x02], .andAR 0xA0 2),
        ([0x22, 0x03, 0xA0], .andRA 3 0xA0),
        ([0x23, 0x04, 0x05], .andRR 4 5),
        ([0x24, 0x01, 0x00], .orRI 1 0x00),
        ([0x25, 0xA0, 0x02], .orAR 0xA0 2),
        ([0x26, 0x03, 0xA0], .orRA 3 0xA0),
        ([0x27, 0x04, 0x05], .orRR 4 5),
        ([0x28, 0x01, 0x5A], .xorRI 1 0x5A),
        ([0x29, 0xA0, 0x02], .xorAR 0xA0 2),
        ([0x2A, 0x03, 0xA0], .xorRA 3 0xA0),
        ([0x2B, 0x04, 0x05], .xorRR 4 5),
        ([0x2C, 0x06], .notR 6),
        ([0x2D, 0xA0], .notA 0xA0)] : List (List Byte × Instr)),
      decode row.1 = .ok (row.2, []) := by
  decide

/-- The example of each rule of `44_arithmetic.md`. -/
theorem test_decode_arithmetic :
    ∀ row ∈ ([
        ([0x30, 0x01, 0x01], .addRI 1 0x01),
        ([0x31, 0xA0, 0x02], .addAR 0xA0 2),
        ([0x32, 0x03, 0xA0], .addRA 3 0xA0),
        ([0x33, 0x04, 0x05], .addRR 4 5),
        ([0x34, 0x01, 0x01], .subRI 1 0x01),
        ([0x35, 0xA0, 0x02], .subAR 0xA0 2),
        ([0x36, 0x03, 0xA0], .subRA 3 0xA0),
        ([0x37, 0x04, 0x05], .subRR 4 5),
        ([0x38, 0x00], .incR 0),
        ([0x39, 0xA0], .incA 0xA0),
        ([0x3A, 0x02], .decR 2),
        ([0x3B, 0xA0], .decA 0xA0)] : List (List Byte × Instr)),
      decode row.1 = .ok (row.2, []) := by
  decide

/-- The example of each rule of `45_control_flow.md`. -/
theorem test_decode_jumps :
    ∀ row ∈ ([
        ([0x40, 0x96], .jmpI 0x96),
        ([0x41, 0x03], .jmpR 3),
        ([0x42, 0x01, 0x90], .jifII 1 0x90),
        ([0x43, 0x01, 0x02], .jifIR 1 2),
        ([0x44, 0x01, 0x96], .jniII 1 0x96),
        ([0x45, 0x01, 0x05], .jniIR 1 5)] : List (List Byte × Instr)),
      decode row.1 = .ok (row.2, []) := by
  decide

/-! ## Decoding: what is rejected -/

/-- The edges of the unassigned ranges (`30_encoding.md` R58) and their assigned neighbours (R56). -/
theorem test_unassigned_edges :
    ([0x00, 0x08, 0x0E, 0x16, 0x17, 0x2E, 0x2F, 0x3C, 0x3F, 0x46, 0x4F, 0x58, 0xFF] : List Byte).all
      (fun op => decide (decode [op, 0, 0] = .error (.illegalOpcode op))) = true ∧
    ([0x01, 0x07, 0x0F, 0x15, 0x18, 0x2D, 0x30, 0x3B, 0x40, 0x45, 0x50, 0x57] : List Byte).all
      (fun op => (layoutOf op).isSome) = true := by
  decide

/-- A REG byte is not masked (R54), and the first bad one is named (`60_exceptions.md` R184). -/
theorem test_register_edges :
    decode [0x38, 0x07] = .ok (.incR 7, []) ∧
    decode [0x38, 0x08] = .error (.illegalRegister 0x38 .op1 0x08) ∧
    decode [0x13, 0x00, 0xFF] = .error (.illegalRegister 0x13 .op2 0xFF) ∧
    decode [0x13, 0x09, 0x0A] = .error (.illegalRegister 0x13 .op1 0x09) := by
  decide

/-- Rows of the opcode table, their other bytes zero, one per family and IN, decode and run as the first instruction
after reset. -/
theorem test_rows_run_from_reset :
    ∀ op ∈ ([0x04, 0x06, 0x10, 0x18, 0x20, 0x30, 0x42, 0x57] : List Nat),
      (decodeTableWord 8 op).isSome = true ∧
      (match step (State.reset.withFetchWord 8 op) with
        | .next t => decide (t.run = .running)
        | _ => false) = true := by
  decide

/-- The table's numbering: the second byte is bits 15:8, the third bits 23:16. -/
theorem test_table_word_bytes :
    decodeTableWord 24 0x2A0210 = some (.movRI 2 0x2A) ∧ decodeTableWord 8 0x00 = none := by
  decide

/-! ## The vectors of `95_test_vectors.md` -/

/-- DIS $(0x00). -/
theorem test_VB1 :
    after s0 [0x01, 0x00] (fun t => (t.pc, t.getReg 7, t.disp, t.trace)) = some (0x092, 0x10, 0x00, [.disp 0x00]) := by
  decide

/-- DIS R7. -/
theorem test_VB2 :
    after s0 [0x02, 0x07] (fun t => (t.pc, t.getReg 7, t.disp, t.trace)) = some (0x092, 0x10, 0x10, [.disp 0x10]) := by
  decide

/-- DIS [0x30]. -/
theorem test_VB3 :
    after s0 [0x03, 0x30] (fun t => (t.pc, t.getReg 7, t.disp, t.trace)) = some (0x092, 0x10, 0x55, [.disp 0x55]) := by
  decide

/-- OUT $(0x02), $(0x09). -/
theorem test_VB7 :
    after s0 [0x05, 0x02, 0x09] (fun t => (t.pc, t.getReg 7, t.trace)) = some (0x093, 0x10, [.out 0x02 0x09]) := by
  decide

/-- OUT $(0x02), R6. -/
theorem test_VB8 :
    after s0 [0x06, 0x02, 0x06] (fun t => (t.pc, t.getReg 7, t.trace)) = some (0x093, 0x10, [.out 0x02 0x7F]) := by
  decide

/-- OUT $(0xFF), [0x30]. -/
theorem test_VB9 :
    after s0 [0x07, 0xFF, 0x30] (fun t => (t.pc, t.getReg 7, t.trace)) = some (0x093, 0x10, [.out 0xFF 0x55]) := by
  decide

/-- BRK. -/
theorem test_VB10 : after s0 [0x0F] (fun t => (t.pc, t.getReg 7, t.run)) = some (0x091, 0x10, .halted) := by
  decide

/-- MOV R1, $(0x7E). -/
theorem test_VA1 :
    after s0 [0x10, 0x01, 0x7E] (fun t => (t.pc, t.getReg 1, t.getReg 7)) = some (0x093, 0x7E, 0x10) := by
  decide

/-- MOV R7, $(0x00). -/
theorem test_VA4 : after s0 [0x10, 0x07, 0x00] (fun t => (t.pc, t.getReg 7)) = some (0x093, 0x01) := by
  decide

/-- MOV [0x40], R2. -/
theorem test_VA5 :
    after s0 [0x11, 0x40, 0x02] (fun t => (t.pc, t.getReg 7, t.byteAt 0x140)) = some (0x093, 0x10, 0xFF) := by
  decide

/-- MOV [0x40], R1. -/
theorem test_VA6 : after s0 [0x11, 0x40, 0x01] (fun t => (t.pc, t.getReg 7)) = some (0x093, 0x11) := by
  decide

/-- MOV R4, [0x30]. -/
theorem test_VA7 :
    after s0 [0x12, 0x04, 0x30] (fun t => (t.pc, t.getReg 4, t.getReg 7)) = some (0x093, 0x55, 0x10) := by
  decide

/-- MOV R7, [0x7F]. -/
theorem test_VA9 : after s0 [0x12, 0x07, 0x7F] (fun t => (t.pc, t.getReg 7)) = some (0x093, 0x20) := by
  decide

/-- MOV R6, R3. -/
theorem test_VA10 :
    after s0 [0x13, 0x06, 0x03] (fun t => (t.pc, t.getReg 6, t.getReg 7)) = some (0x093, 0x80, 0x10) := by
  decide

/-- MOV R7, R7. -/
theorem test_VA12 : after s0 [0x13, 0x07, 0x07] (fun t => (t.pc, t.getReg 7)) = some (0x093, 0x10) := by
  decide

/-- CLS $(0x03). -/
theorem test_VB12 :
    after s0 [0x15, 0x03] (fun t => (t.pc, t.getReg 7, t.trace)) = some (0x092, 0x10, [.clear 0x03]) := by
  decide

/-- SBL R3. -/
theorem test_VC1 : after s0 [0x18, 0x03] (fun t => (t.pc, t.getReg 3, t.getReg 7)) = some (0x092, 0x00, 0x11) := by
  decide

/-- SBL R7. -/
theorem test_VC13 : after s0 [0x18, 0x07] (fun t => (t.pc, t.getReg 7)) = some (0x092, 0x20) := by
  decide

/-- SBL [0x00]. -/
theorem test_VC3 :
    after s0 [0x19, 0x00] (fun t => (t.pc, t.getReg 7, t.byteAt 0x100)) = some (0x092, 0x10, 0x54) := by
  decide

/-- SBR R4. -/
theorem test_VC4 : after s0 [0x1A, 0x04] (fun t => (t.pc, t.getReg 4, t.getReg 7)) = some (0x092, 0x00, 0x11) := by
  decide

/-- SBR R3. -/
theorem test_VC5 : after s0 [0x1A, 0x03] (fun t => (t.pc, t.getReg 3, t.getReg 7)) = some (0x092, 0x40, 0x10) := by
  decide

/-- SBR [0x30]. -/
theorem test_VC6 :
    after s0 [0x1B, 0x30] (fun t => (t.pc, t.getReg 7, t.byteAt 0x130)) = some (0x092, 0x10, 0x2A) := by
  decide

/-- RBL R3. -/
theorem test_VC7 : after s0 [0x1C, 0x03] (fun t => (t.pc, t.getReg 3, t.getReg 7)) = some (0x092, 0x01, 0x10) := by
  decide

/-- RBL R1. -/
theorem test_VC8 : after s0 [0x1C, 0x01] (fun t => (t.pc, t.getReg 7)) = some (0x092, 0x11) := by
  decide

/-- RBL [0x00]. -/
theorem test_VC9 :
    after s0 [0x1D, 0x00] (fun t => (t.pc, t.getReg 7, t.byteAt 0x100)) = some (0x092, 0x10, 0x55) := by
  decide

/-- RBR R4. -/
theorem test_VC10 : after s0 [0x1E, 0x04] (fun t => (t.pc, t.getReg 4, t.getReg 7)) = some (0x092, 0x80, 0x10) := by
  decide

/-- RBR R2. -/
theorem test_VC11 : after s0 [0x1E, 0x02] (fun t => (t.pc, t.getReg 7)) = some (0x092, 0x10) := by
  decide

/-- RBR [0xFF]. -/
theorem test_VC12 :
    after s0 [0x1F, 0xFF] (fun t => (t.pc, t.getReg 7, t.byteAt 0x1FF)) = some (0x092, 0x10, 0x80) := by
  decide

/-- AND R2, $(0x0F). -/
theorem test_VD1 :
    after s0 [0x20, 0x02, 0x0F] (fun t => (t.pc, t.getReg 2, t.getReg 7)) = some (0x093, 0x0F, 0x10) := by
  decide

/-- AND R7, $(0xF0). -/
theorem test_VD20 : after s0 [0x20, 0x07, 0xF0] (fun t => (t.pc, t.getReg 7)) = some (0x093, 0x10) := by
  decide

/-- AND [0x00], R6. -/
theorem test_VD3 :
    after s0 [0x21, 0x00, 0x06] (fun t => (t.pc, t.getReg 7, t.byteAt 0x100)) = some (0x093, 0x10, 0x2A) := by
  decide

/-- AND R2, [0x30]. -/
theorem test_VD4 :
    after s0 [0x22, 0x02, 0x30] (fun t => (t.pc, t.getReg 2, t.getReg 7)) = some (0x093, 0x55, 0x10) := by
  decide

/-- AND R3, R4. -/
theorem test_VD5 :
    after s0 [0x23, 0x03, 0x04] (fun t => (t.pc, t.getReg 3, t.getReg 7)) = some (0x093, 0x00, 0x11) := by
  decide

/-- OR R1, $(0x00). -/
theorem test_VD6 : after s0 [0x24, 0x01, 0x00] (fun t => (t.pc, t.getReg 7)) = some (0x093, 0x11) := by
  decide

/-- OR R3, $(0x01). -/
theorem test_VD7 :
    after s0 [0x24, 0x03, 0x01] (fun t => (t.pc, t.getReg 3, t.getReg 7)) = some (0x093, 0x81, 0x10) := by
  decide

/-- OR [0x55], R4. -/
theorem test_VD8 :
    after s0 [0x25, 0x55, 0x04] (fun t => (t.pc, t.getReg 7, t.byteAt 0x155)) = some (0x093, 0x10, 0x01) := by
  decide

/-- OR R4, [0x00]. -/
theorem test_VD9 :
    after s0 [0x26, 0x04, 0x00] (fun t => (t.pc, t.getReg 4, t.getReg 7)) = some (0x093, 0xAB, 0x10) := by
  decide

/-- OR R1, R1. -/
theorem test_VD10 : after s0 [0x27, 0x01, 0x01] (fun t => (t.pc, t.getReg 7)) = some (0x093, 0x11) := by
  decide

/-- XOR R2, $(0xFF). -/
theorem test_VD11 :
    after s0 [0x28, 0x02, 0xFF] (fun t => (t.pc, t.getReg 2, t.getReg 7)) = some (0x093, 0x00, 0x11) := by
  decide

/-- XOR [0x30], R6. -/
theorem test_VD12 :
    after s0 [0x29, 0x30, 0x06] (fun t => (t.pc, t.getReg 7, t.byteAt 0x130)) = some (0x093, 0x10, 0x2A) := by
  decide

/-- XOR R0, [0x20]. -/
theorem test_VD13 :
    after s0 [0x2A, 0x00, 0x20] (fun t => (t.pc, t.getReg 0, t.getReg 7)) = some (0x093, 0x10, 0x10) := by
  decide

/-- XOR R5, R5. -/
theorem test_VD14 :
    after s0 [0x2B, 0x05, 0x05] (fun t => (t.pc, t.getReg 5, t.getReg 7)) = some (0x093, 0x00, 0x11) := by
  decide

/-- XOR R7, R7. -/
theorem test_VD15 : after s0 [0x2B, 0x07, 0x07] (fun t => (t.pc, t.getReg 7)) = some (0x093, 0x01) := by
  decide

/-- NOT R2. -/
theorem test_VD16 : after s0 [0x2C, 0x02] (fun t => (t.pc, t.getReg 2, t.getReg 7)) = some (0x092, 0x00, 0x11) := by
  decide

/-- NOT R7. -/
theorem test_VD19 : after s0 [0x2C, 0x07] (fun t => (t.pc, t.getReg 7)) = some (0x092, 0xEE) := by
  decide

/-- NOT [0x00]. -/
theorem test_VD18 :
    after s0 [0x2D, 0x00] (fun t => (t.pc, t.getReg 7, t.byteAt 0x100)) = some (0x092, 0x10, 0x55) := by
  decide

/-- ADD R2, $(0x01). -/
theorem test_VE1 :
    after s0 [0x30, 0x02, 0x01] (fun t => (t.pc, t.getReg 2, t.getReg 7)) = some (0x093, 0x00, 0x11) := by
  decide

/-- ADD R7, $(0x10). -/
theorem test_VE21 : after s0 [0x30, 0x07, 0x10] (fun t => (t.pc, t.getReg 7)) = some (0x093, 0x20) := by
  decide

/-- ADD [0x30], R0. -/
theorem test_VE3 :
    after s0 [0x31, 0x30, 0x00] (fun t => (t.pc, t.getReg 7, t.byteAt 0x130)) = some (0x093, 0x10, 0x75) := by
  decide

/-- ADD R3, [0x00]. -/
theorem test_VE4 :
    after s0 [0x32, 0x03, 0x00] (fun t => (t.pc, t.getReg 3, t.getReg 7)) = some (0x093, 0x2A, 0x10) := by
  decide

/-- ADD R3, R3. -/
theorem test_VE5 :
    after s0 [0x33, 0x03, 0x03] (fun t => (t.pc, t.getReg 3, t.getReg 7)) = some (0x093, 0x00, 0x11) := by
  decide

/-- ADD R1, R1. -/
theorem test_VE6 : after s0 [0x33, 0x01, 0x01] (fun t => (t.pc, t.getReg 7)) = some (0x093, 0x11) := by
  decide

/-- SUB R1, $(0x01). -/
theorem test_VE7 :
    after s0 [0x34, 0x01, 0x01] (fun t => (t.pc, t.getReg 1, t.getReg 7)) = some (0x093, 0xFF, 0x10) := by
  decide

/-- SUB R7, $(0x10). -/
theorem test_VE22 : after s0 [0x34, 0x07, 0x10] (fun t => (t.pc, t.getReg 7)) = some (0x093, 0x01) := by
  decide

/-- SUB [0x20], R5. -/
theorem test_VE9 :
    after s0 [0x35, 0x20, 0x05] (fun t => (t.pc, t.getReg 7, t.byteAt 0x120)) = some (0x093, 0x11, 0x00) := by
  decide

/-- SUB R0, [0x30]. -/
theorem test_VE10 :
    after s0 [0x36, 0x00, 0x30] (fun t => (t.pc, t.getReg 0, t.getReg 7)) = some (0x093, 0xCB, 0x10) := by
  decide

/-- SUB R6, R6. -/
theorem test_VE11 :
    after s0 [0x37, 0x06, 0x06] (fun t => (t.pc, t.getReg 6, t.getReg 7)) = some (0x093, 0x00, 0x11) := by
  decide

/-- SUB R3, R4. -/
theorem test_VE12 :
    after s0 [0x37, 0x03, 0x04] (fun t => (t.pc, t.getReg 3, t.getReg 7)) = some (0x093, 0x7F, 0x10) := by
  decide

/-- INC R2. -/
theorem test_VE13 : after s0 [0x38, 0x02] (fun t => (t.pc, t.getReg 2, t.getReg 7)) = some (0x092, 0x00, 0x11) := by
  decide

/-- INC R7. -/
theorem test_VE20 : after s0 [0x38, 0x07] (fun t => (t.pc, t.getReg 7)) = some (0x092, 0x10) := by
  decide

/-- INC [0xFF]. -/
theorem test_VE15 :
    after s0 [0x39, 0xFF] (fun t => (t.pc, t.getReg 7, t.byteAt 0x1FF)) = some (0x092, 0x10, 0x02) := by
  decide

/-- DEC R4. -/
theorem test_VE16 : after s0 [0x3A, 0x04] (fun t => (t.pc, t.getReg 4, t.getReg 7)) = some (0x092, 0x00, 0x11) := by
  decide

/-- DEC R1. -/
theorem test_VE17 : after s0 [0x3A, 0x01] (fun t => (t.pc, t.getReg 1, t.getReg 7)) = some (0x092, 0xFF, 0x10) := by
  decide

/-- DEC [0x55]. -/
theorem test_VE18 :
    after s0 [0x3B, 0x55] (fun t => (t.pc, t.getReg 7, t.byteAt 0x155)) = some (0x092, 0x10, 0xFF) := by
  decide

/-- DEC [0xFF]. -/
theorem test_VE19 :
    after s0 [0x3B, 0xFF] (fun t => (t.pc, t.getReg 7, t.byteAt 0x1FF)) = some (0x092, 0x11, 0x00) := by
  decide

/-- JMP $(0x40). -/
theorem test_VF1 : after s0 [0x40, 0x40] (fun t => (t.pc, t.getReg 7)) = some (0x140, 0x10) := by
  decide

/-- JMP $(0x40) with x[7]=0x00. -/
theorem test_VF2 : after (s0.setReg 7 0x00) [0x40, 0x40] (fun t => (t.pc, t.getReg 7)) = some (0x040, 0x00) := by
  decide

/-- JMP R0. -/
theorem test_VF3 : after s0 [0x41, 0x00] (fun t => (t.pc, t.getReg 7)) = some (0x120, 0x10) := by
  decide

/-- JMP R7. -/
theorem test_VF4 : after s0 [0x41, 0x07] (fun t => (t.pc, t.getReg 7)) = some (0x110, 0x10) := by
  decide

/-- JIF $(1), $(0x40) with ZF=0. -/
theorem test_VF5 : after s0 [0x42, 0x01, 0x40] (fun t => (t.pc, t.getReg 7)) = some (0x093, 0x10) := by
  decide

/-- JIF $(2), $(0x40) with x[7]=0x11. -/
theorem test_VF8 :
    after (s0.setReg 7 0x11) [0x42, 0x02, 0x40] (fun t => (t.pc, t.getReg 7)) = some (0x093, 0x11) := by
  decide

/-- JIF $(1), R5 with x[7]=0x11. -/
theorem test_VF9 :
    after (s0.setReg 7 0x11) [0x43, 0x01, 0x05] (fun t => (t.pc, t.getReg 7)) = some (0x130, 0x11) := by
  decide

/-- JIF $(1), R5 with ZF=0. -/
theorem test_VF10 : after s0 [0x43, 0x01, 0x05] (fun t => (t.pc, t.getReg 7)) = some (0x093, 0x10) := by
  decide

/-- JNI $(1), $(0x40) with ZF=0. -/
theorem test_VF11 : after s0 [0x44, 0x01, 0x40] (fun t => (t.pc, t.getReg 7)) = some (0x140, 0x10) := by
  decide

/-- JNI $(1), $(0x40) with x[7]=0x11. -/
theorem test_VF12 :
    after (s0.setReg 7 0x11) [0x44, 0x01, 0x40] (fun t => (t.pc, t.getReg 7)) = some (0x093, 0x11) := by
  decide

/-- JNI $(1), R2 with ZF=0. -/
theorem test_VF14 : after s0 [0x45, 0x01, 0x02] (fun t => (t.pc, t.getReg 7)) = some (0x1FF, 0x10) := by
  decide

/-- JNI $(0xFF), R2 with ZF=0. -/
theorem test_VF15 : after s0 [0x45, 0xFF, 0x02] (fun t => (t.pc, t.getReg 7)) = some (0x093, 0x10) := by
  decide

/-- MIL R0, $(0x77). -/
theorem test_VA13 :
    after s0 [0x50, 0x00, 0x77] (fun t => (t.pc, t.getReg 7, t.byteAt 0x120)) = some (0x093, 0x10, 0x77) := by
  decide

/-- MIL R1, $(0x77). -/
theorem test_VA14 :
    after s0 [0x50, 0x01, 0x77] (fun t => (t.pc, t.getReg 7, t.byteAt 0x100)) = some (0x093, 0x11, 0x77) := by
  decide

/-- MIL R5, R2. -/
theorem test_VA15 :
    after s0 [0x51, 0x05, 0x02] (fun t => (t.pc, t.getReg 7, t.byteAt 0x130)) = some (0x093, 0x10, 0xFF) := by
  decide

/-- MIL R1, R1. -/
theorem test_VA16 :
    after s0 [0x51, 0x01, 0x01] (fun t => (t.pc, t.getReg 7, t.byteAt 0x100)) = some (0x093, 0x11, 0x00) := by
  decide

/-- MIL R0, [0x30]. -/
theorem test_VA17 :
    after s0 [0x52, 0x00, 0x30] (fun t => (t.pc, t.getReg 7, t.byteAt 0x120)) = some (0x093, 0x10, 0x55) := by
  decide

/-- MIL [0x20], R6. -/
theorem test_VA18 :
    after s0 [0x53, 0x20, 0x06] (fun t => (t.pc, t.getReg 7, t.byteAt 0x130)) = some (0x093, 0x10, 0x7F) := by
  decide

/-- MIL [0x20], R1. -/
theorem test_VA19 :
    after s0 [0x53, 0x20, 0x01] (fun t => (t.pc, t.getReg 7, t.byteAt 0x130)) = some (0x093, 0x11, 0x00) := by
  decide

/-- MFI R4, R0. -/
theorem test_VA20 :
    after s0 [0x54, 0x04, 0x00] (fun t => (t.pc, t.getReg 4, t.getReg 7)) = some (0x093, 0x30, 0x10) := by
  decide

/-- MFI R0, R0. -/
theorem test_VA21 :
    after s0 [0x54, 0x00, 0x00] (fun t => (t.pc, t.getReg 0, t.getReg 7)) = some (0x093, 0x30, 0x10) := by
  decide

/-- MFI R4, [0x20]. -/
theorem test_VA22 :
    after s0 [0x55, 0x04, 0x20] (fun t => (t.pc, t.getReg 4, t.getReg 7)) = some (0x093, 0x55, 0x10) := by
  decide

/-- MFI [0x41], R5. -/
theorem test_VA23 :
    after s0 [0x56, 0x41, 0x05] (fun t => (t.pc, t.getReg 7, t.byteAt 0x141)) = some (0x093, 0x10, 0x55) := by
  decide

/-- MFI [0x41], [0x20]. -/
theorem test_VA24 :
    after s0 [0x57, 0x41, 0x20] (fun t => (t.pc, t.getReg 7, t.byteAt 0x141)) = some (0x093, 0x10, 0x55) := by
  decide

/-- MFI [0x41], [0xFF]. -/
theorem test_VA25 : after s0 [0x57, 0x41, 0xFF] (fun t => (t.pc, t.getReg 7)) = some (0x093, 0x11) := by
  decide

/-- VB4: IN R1 with input 0x5A. -/
theorem test_VB4 (h : Config.input 0 = 0x5A) :
    after s0 [0x04, 0x01] (fun t => (t.pc, t.getReg 1, t.inputReads)) = some (0x092, 0x5A, 1) := by
  rw [← h]; rfl

/-- VB6: IN R7 with input 0xF3: the flag replaces bit 0 of the byte read. -/
theorem test_VB6 (h : Config.input 0 = 0xF3) :
    after s0 [0x04, 0x07] (fun t => (t.pc, t.getReg 7)) = some (0x092, 0xF2) := by
  have e : after s0 [0x04, 0x07] (fun t => (t.pc, t.getReg 7)) =
      some (0x092, (Config.input 0 &&& 0xFE) ||| zeroBit (Config.input 0)) := rfl
  rw [e, h]; decide

/-- VB11: SHW sends 128 bytes from absolute address 0; here page 1 is active and byte 0x07F holds 0x77. -/
theorem test_VB11 :
    after (s0.load 0x07F [0x77]) [0x14] (fun t => (t.pc, t.getReg 7, t.trace)) =
      some (0x091, 0x10, [.show (List.replicate 127 0x00 ++ [0x77])]) := by
  decide

/-- VB13: MOV R1, [0x80] in page 0 with input 0x5A. -/
theorem test_VB13 (h : Config.input 0 = 0x5A) :
    after s0page0 [0x12, 0x01, 0x80] (fun t => (t.pc, t.getReg 1, t.inputReads)) = some (0x093, 0x5A, 1) := by
  rw [← h]; rfl

/-- VB14: the same offset in page 1 is plain memory. -/
theorem test_VB14 :
    after s0 [0x12, 0x01, 0x80] (fun t => (t.pc, t.getReg 1, t.inputReads)) = some (0x093, 0x99, 0) := by
  decide

/-- VB15: MOV [0x80], R2 in page 0: the write is dropped, the flag is set. -/
theorem test_VB15 :
    after s0page0 [0x11, 0x80, 0x02] (fun t => (t.pc, t.getReg 7, t.byteAt 0x080, t.inputReads)) =
      some (0x093, 0x00, 0x00, 0) := by
  decide

/-- VB16: INC [0x80] in page 0 with input 0xFF: the sum is zero, the write is dropped. -/
theorem test_VB16 (h : Config.input 0 = 0xFF) :
    after s0page0 [0x39, 0x80] (fun t => (t.pc, t.getReg 7, t.byteAt 0x080)) = some (0x092, 0x01, 0x00) := by
  have e : after s0page0 [0x39, 0x80] (fun t => (t.pc, t.getReg 7, t.byteAt 0x080)) =
      some (0x092, (0x00 &&& 0xFE) ||| zeroBit (Config.input 0 + 1), 0x00) := rfl
  rw [e, h]; decide

/-- VF16: the operand byte of an instruction at 0xFFF is at 0x000. -/
theorem test_VF16 : after (s0.setPc 0xFFF) [0x38, 0x00] (fun t => (t.pc, t.getReg 0)) = some (0x001, 0x21) := by
  decide

/-- VF18: JMP in page 0xF. -/
theorem test_VF18 : after (s0.setReg 7 0xF0) [0x40, 0xFF] (fun t => t.pc) = some 0xFFF := by
  decide

/-- VG1: an unassigned opcode faults and changes nothing else. -/
theorem test_VG1 :
    after s0 [0x00] id = some { s0 with run := .faulted (.illegalOpcode 0x090 0x00) } := by
  decide

/-- VG10: a REG byte above 7 at the second position. -/
theorem test_VG10 :
    after s0 [0x13, 0x00, 0xFF] (fun t => (t.pc, t.run)) =
      some (0x090, .faulted (.illegalRegister 0x090 0x13 .op2 0xFF)) := by
  decide

/-- VG12: a jump that would not be taken still faults. -/
theorem test_VG12 :
    after s0 [0x43, 0x00, 0x08] (fun t => (t.pc, t.run)) =
      some (0x090, .faulted (.illegalRegister 0x090 0x43 .op2 0x08)) := by
  decide

/-- The table of L1-1: effective addresses. -/
theorem test_effective_addresses :
    (s0.setReg 7 0x00).ea 0x80 = 0x080 ∧
    (s0.setReg 7 0x01).ea 0x80 = 0x080 ∧
    (s0.setReg 7 0x0F).ea 0x00 = 0x000 ∧
    (s0.setReg 7 0x10).ea 0x00 = 0x100 ∧
    (s0.setReg 7 0x2F).ea 0x34 = 0x234 ∧
    (s0.setReg 7 0xF0).ea 0xFF = 0xFFF ∧
    (s0.setReg 7 0xA5).ea 0x5A = 0xA5A := by
  decide

/-! ## A witness for every statement with hypotheses -/

/-- S0 with an instruction's bytes at the pc. -/
def placed (bytes : List Byte) : State := s0.load s0.pc bytes

theorem witness_DecodedBytesAreTheEncoding : decode [0x10, 0x07, 0x2A, 0x99] = .ok (.movRI 7 0x2A, [0x99]) := by
  decide

theorem witness_LengthIsOnePlusOperands :
    encode (.mfiAA 0x11 0xC0) = 0x57 :: [0x11, 0xC0] ∧ encode .brk = 0x0F :: [] := by
  decide

theorem witness_AssemblerIsExact :
    assemble ⟨.MOV, [.reg 7, .imm 255]⟩ = some [0x10, 0x07, 0xFF] ∧ assemble ⟨.BRK, []⟩ = some [0x0F] := by
  decide

theorem witness_StepRunsTheDecodedInstruction :
    (placed [0x10, 0x01, 0x7E]).run = .running ∧
    decode (fetch (placed [0x10, 0x01, 0x7E])).1 = .ok (.movRI 1 0x7E, []) := by
  decide

/-- With the instruction at 0x090, and with its bytes at 0xFFE, 0xFFF and 0x000. -/
theorem witness_StepRunsTheInstructionInMemory :
    ∀ s ∈ [placed [0x10, 0x01, 0x7E], (s0.load 0xFFE [0x10, 0x01, 0x7E]).setPc 0xFFE],
      s.run = .running ∧
      ∀ (k : Nat) (h : k < (encode (.movRI 1 0x7E)).length), s.pc + BitVec.ofNat 12 k ≠ 0x080 ∧
        s.byteAt (s.pc + BitVec.ofNat 12 k) = (encode (.movRI 1 0x7E))[k] := by
  decide

/-- A fetch that meets no 0x080: a one-byte instruction just below the device, a two-byte one that wraps, and the byte
above the device. -/
theorem witness_FetchReadsTheBytesAtThePc :
    ∀ s ∈ [(s0.load 0x07F [0x0F]).setPc 0x07F, (s0.load 0xFFF [0x38, 0x00]).setPc 0xFFF, s0.setPc 0x081],
      ∀ k, k < 1 + operandCount (s.sees s.pc 0) → s.pc + BitVec.ofNat 12 k ≠ 0x080 := by
  decide

/-- A fetch that meets it: JMP at 0x07F has its operand byte at 0x080, one draw (`20_memory.md` R35). -/
theorem test_operand_fetched_from_device :
    fetch ((s0.load 0x07F [0x40]).setPc 0x07F) =
      ([0x40, Config.input 0], { (s0.load 0x07F [0x40]).setPc 0x07F with inputReads := 1 }) := by
  rfl

theorem witness_RejectedBytesFaultTheMachine :
    (placed [0x00]).run = .running ∧
    decode (fetch (placed [0x00])).1 = .error (.illegalOpcode 0x00) ∧
    (placed [0x43, 0x00, 0x08]).run = .running ∧
    decode (fetch (placed [0x43, 0x00, 0x08])).1 = .error (.illegalRegister 0x43 .op2 0x08) := by
  decide

theorem witness_UnassignedOpcodeInMemoryFaults :
    ((placed [0x00]).run = .running ∧ (placed [0x00]).pc ≠ 0x080 ∧
      layoutOf ((placed [0x00]).byteAt (placed [0x00]).pc) = none) ∧
    (placed [0xFF]).run = .running ∧ (placed [0xFF]).pc ≠ 0x080 ∧
      layoutOf ((placed [0xFF]).byteAt (placed [0xFF]).pc) = none := by
  decide

theorem witness_HaltedIsFinal : s0.halt.run = .halted := by
  decide

theorem witness_FaultedIsFinal :
    (s0.raise (.illegalOpcode 0x090 0x00)).run = .faulted (.illegalOpcode 0x090 0x00) := by
  decide

/-- Each of the two ends is reached by some run. -/
theorem witness_RunEndsInOneWayOnly : (placed [0x0F]).endsHalted ∧ (placed [0x00]).endsFaulted :=
  ⟨⟨1, _, rfl, rfl⟩, ⟨1, _, _, rfl, rfl⟩⟩

/-- One step of each of the three kinds. -/
theorem witness_LeavingRunning :
    (∃ t, (placed [0x0F]).run = .running ∧ step (placed [0x0F]) = .next t ∧ t.run = .halted) ∧
    (∃ t f, (placed [0x00]).run = .running ∧ step (placed [0x00]) = .next t ∧ t.run = .faulted f) ∧
    ∃ t, (placed [0x14]).run = .running ∧ step (placed [0x14]) = .next t ∧ t.run = .running :=
  ⟨⟨_, rfl, rfl, rfl⟩, ⟨_, _, rfl, rfl, rfl⟩, ⟨_, rfl, rfl, rfl⟩⟩

/-- A canonical initial memory with a byte at each end of the address space. -/
def image : Memory := [(0x000, 0x01), (0x07F, 0x02), (0x081, 0x03), (0xFFF, 0xFF)]

theorem witness_StartMeetsTheInvariant : image.wf := by
  decide

/-- What the canonical form rules out: the device's address, an address beyond the last, a listed 0x00, a wrong
order. -/
theorem test_not_canonical :
    ¬ Memory.wf [(0x080, 0x01)] ∧ ¬ Memory.wf [(0x1000, 0x01)] ∧ ¬ Memory.wf [(0x000, 0x00)] ∧
    ¬ Memory.wf [(0x002, 0x01), (0x001, 0x01)] := by
  decide

/-- S0 with SHW at the pc meets the invariant and steps. -/
theorem witness_StepKeepsTheInvariant : (placed [0x14]).Inv ∧ ∃ t, step (placed [0x14]) = .next t :=
  ⟨⟨by decide, fun _ h => (nomatch h), fun _ h => (nomatch h)⟩, _, rfl⟩

/-- The invariant says something: a machine faulted with a reason that is none does not meet it. -/
theorem test_invariant_excludes : ¬ (s0.raise (.illegalOpcode 0x090 0x0F)).Inv :=
  fun h => nomatch (h.reason _ rfl).2

theorem witness_FirstInstructionIsAt0x090 : image.wf ∧ encode (.movRI 7 0xFF) = [0x10, 0x07, 0xFF] := by
  decide

/-- Two states whose R7 differ in bits 3:0 only. -/
theorem witness_EffectiveAddressFormula :
    ((s0.setReg 7 0x1F).getReg r7).toNat / 16 = (s0.getReg r7).toNat / 16 ∧
    (s0.setReg 7 0x1F).getReg r7 ≠ s0.getReg r7 := by
  decide

/-- The first and the last address. -/
theorem witness_EveryAddressHasOnePageAndOffset :
    (s0.setReg 7 0x00).page = 0x0 ∧ (s0.setReg 7 0x00).ea 0x00 = 0x000 ∧
    (s0.setReg 7 0xF0).page = 0xF ∧ (s0.setReg 7 0xF0).ea 0xFF = 0xFFF := by
  decide

/-- The addresses beside the device's and the ends of memory. -/
theorem witness_ReadsSeeMemoryOrTheInputController :
    (0x000 : Addr) ≠ 0x080 ∧ (0x07F : Addr) ≠ 0x080 ∧ (0x081 : Addr) ≠ 0x080 ∧ (0xFFF : Addr) ≠ 0x080 := by
  decide

theorem witness_WritesAreReadBack :
    s0.mem.wf ∧ (0x07F : Addr) ≠ 0x080 ∧ (0x081 : Addr) ≠ 0x080 ∧ (0x081 : Addr) ≠ 0x07F := by
  decide

/-- Two memories written in different orders. -/
theorem witness_CanonicalMemoriesAreEqualData :
    let m := Memory.write (Memory.write [] 0x000 0x01) 0xFFF 0x02
    let m' := Memory.write (Memory.write (Memory.write [] 0xFFF 0x02) 0x123 0x00) 0x000 0x01
    m.wf ∧ m'.wf ∧ ∀ a : Addr, a ≠ 0x080 → m.read a.toNat = m'.read a.toNat := by
  refine ⟨by decide, by decide, fun a _ => rfl⟩

theorem witness_AStoreIsSeenByTheNextFetch : s0.mem.wf ∧ (0x081 : Addr) ≠ 0x080 ∧ (0x07F : Addr) ≠ 0x080 := by
  decide

/-- A register destination other than R7; an instruction that writes no flag. -/
theorem witness_RegistersChangeOnlyAsNamed :
    (∃ t, exec (.movRI 6 0x31) s0 = .next t) ∧
    (3 : RegName) ≠ r7 ∧ (Instr.movRI 6 0x31).destination ≠ some 3 ∧ (Instr.movRI 6 0x31).destination ≠ some 7 ∧
    (∃ t, exec (.disI 0x31) s0 = .next t) ∧ (Instr.disI 0x31).writesZF = false :=
  ⟨⟨_, rfl⟩, by decide, by decide, by decide, ⟨_, rfl⟩, by decide⟩

/-- An instruction that is no jump; a jump taken. -/
theorem witness_PcGoesOnOrJumpsInThePage :
    ((∃ t, exec (.incR 0) s0 = .next t) ∧ (Instr.incR 0).isJump = false) ∧
    ∃ t, exec (.jmpI 0x40) s0 = .next t ∧ t.pc = 0x140 :=
  ⟨⟨⟨_, rfl⟩, by decide⟩, _, rfl, by decide⟩

/-- A byte that changes, through each of the three ways to name it; a store dropped at 0x080; a form that stores
nothing. -/
theorem witness_StoresStayInTheActivePage :
    (∃ t, exec (.incA 0xFF) s0 = .next t ∧ (Instr.incA 0xFF).storesTo s0 = some 0x1FF ∧
      t.byteAt 0x1FF ≠ s0.byteAt 0x1FF) ∧
    (∃ t, exec (.milRI 0 0x77) s0 = .next t ∧ (Instr.milRI 0 0x77).storesTo s0 = some 0x120 ∧
      t.byteAt 0x120 ≠ s0.byteAt 0x120) ∧
    (∃ t, exec (.milAR 0x20 6) s0 = .next t ∧ (Instr.milAR 0x20 6).storesTo s0 = some 0x130 ∧
      t.byteAt 0x130 ≠ s0.byteAt 0x130) ∧
    (∃ t, exec (.movAR 0x80 2) s0page0 = .next t ∧ (Instr.movAR 0x80 2).storesTo s0page0 = some 0x080) ∧
    ∃ t, exec (.addRR 0 1) s0 = .next t ∧ (Instr.addRR 0 1).storesTo s0 = none :=
  ⟨⟨_, rfl, by decide, by decide⟩, ⟨_, rfl, by decide, by decide⟩, ⟨_, rfl, by decide, by decide⟩,
    ⟨_, rfl, by decide⟩, _, rfl, by decide⟩

theorem witness_TraceIsAppendOnly :
    (∃ t, step (placed [0x01, 0x42]) = .next t) ∧ (∃ t, exec (.disI 0x42) s0 = .next t) ∧
    (Instr.disI 0x42).statement.mnemonic = .DIS ∧
    (∃ t, exec (.movRR 0 1) s0 = .next t) ∧
    (Instr.movRR 0 1).statement.mnemonic ∉ [Mnemonic.OUT, .SHW, .CLS, .DIS] :=
  ⟨⟨_, rfl⟩, ⟨_, rfl⟩, by decide, ⟨_, rfl⟩, by decide⟩

/-- An instruction that reads memory and makes no draw. -/
theorem witness_OnlyReadsOf0x080LetInputIn :
    ∃ t, exec (.mfiAA 0x41 0x20) s0 = .next t ∧ t.inputReads = s0.inputReads :=
  ⟨_, rfl, by decide⟩

/-- A register that holds each first operand of the table's rows, R7 among them. -/
theorem witness_SubIsAddOfTheComplementAndZeroOnEqual :
    ∀ row ∈ ([(0xFF, 0x01), (0x7F, 0x01), (0x80, 0x80), (0x00, 0x00), (0x05, 0x05), (0x10, 0x20)] :
      List (Byte × Byte)), (s0.setReg 7 row.1).getReg 7 = row.1 := by
  intro row _
  exact Vector.getElem_set_self ..

/-- An instruction that is DIS and one that is not. -/
theorem witness_DispIsWrittenByDisAndReadByNone :
    (∃ t, exec (.disR 3) s0 = .next t ∧ t.disp = 0x80) ∧ (Instr.disR 3).statement.mnemonic = .DIS ∧
    (∃ t, exec (.incR 3) s0 = .next t ∧ t.disp = 0xEE) ∧ (Instr.incR 3).statement.mnemonic ≠ .DIS :=
  ⟨⟨_, rfl, by decide⟩, by decide, ⟨_, rfl, by decide⟩, by decide⟩

/-! The statements of a result ask for canonical memory where they store, and a REG byte above 7 where they reject. -/

theorem witness_MovMovesAndSetsZF :
    s0.mem.wf ∧ s0page0.mem.wf ∧ 7 < (0x08 : Byte).toNat ∧ 7 < (0xFF : Byte).toNat := by
  decide

theorem witness_MilStoresThroughAPointer :
    s0.mem.wf ∧ s0page0.mem.wf ∧ 7 < (0x08 : Byte).toNat ∧ 7 < (0xFF : Byte).toNat := by
  decide

theorem witness_MfiLoadsThroughAPointer :
    s0.mem.wf ∧ s0page0.mem.wf ∧ 7 < (0x08 : Byte).toNat ∧ 7 < (0xFF : Byte).toNat := by
  decide

theorem witness_DisShowsAValue : 7 < (0x08 : Byte).toNat ∧ 7 < (0xFF : Byte).toNat := by
  decide

theorem witness_InReadsTheInputController : 7 < (0x08 : Byte).toNat ∧ 7 < (0xFF : Byte).toNat := by
  decide

theorem witness_OutSendsAValueToAPort : 7 < (0x08 : Byte).toNat ∧ 7 < (0xFF : Byte).toNat := by
  decide

theorem witness_SblShiftsLeft :
    s0.mem.wf ∧ s0page0.mem.wf ∧ 7 < (0x08 : Byte).toNat ∧ 7 < (0xFF : Byte).toNat := by
  decide

theorem witness_SbrShiftsRight :
    s0.mem.wf ∧ s0page0.mem.wf ∧ 7 < (0x08 : Byte).toNat ∧ 7 < (0xFF : Byte).toNat := by
  decide

theorem witness_RblRotatesLeft :
    s0.mem.wf ∧ s0page0.mem.wf ∧ 7 < (0x08 : Byte).toNat ∧ 7 < (0xFF : Byte).toNat := by
  decide

theorem witness_RbrRotatesRight :
    s0.mem.wf ∧ s0page0.mem.wf ∧ 7 < (0x08 : Byte).toNat ∧ 7 < (0xFF : Byte).toNat := by
  decide

theorem witness_AndCombinesIntoTheFirst :
    s0.mem.wf ∧ s0page0.mem.wf ∧ 7 < (0x08 : Byte).toNat ∧ 7 < (0xFF : Byte).toNat := by
  decide

theorem witness_OrCombinesIntoTheFirst :
    s0.mem.wf ∧ s0page0.mem.wf ∧ 7 < (0x08 : Byte).toNat ∧ 7 < (0xFF : Byte).toNat := by
  decide

theorem witness_XorCombinesIntoTheFirst :
    s0.mem.wf ∧ s0page0.mem.wf ∧ 7 < (0x08 : Byte).toNat ∧ 7 < (0xFF : Byte).toNat := by
  decide

theorem witness_NotInverts : s0.mem.wf ∧ s0page0.mem.wf ∧ 7 < (0x08 : Byte).toNat ∧ 7 < (0xFF : Byte).toNat := by
  decide

theorem witness_AddAddsIntoTheFirst :
    s0.mem.wf ∧ s0page0.mem.wf ∧ 7 < (0x08 : Byte).toNat ∧ 7 < (0xFF : Byte).toNat := by
  decide

theorem witness_SubSubtractsFromTheFirst :
    s0.mem.wf ∧ s0page0.mem.wf ∧ 7 < (0x08 : Byte).toNat ∧ 7 < (0xFF : Byte).toNat := by
  decide

theorem witness_IncAddsOne : s0.mem.wf ∧ s0page0.mem.wf ∧ 7 < (0x08 : Byte).toNat ∧ 7 < (0xFF : Byte).toNat := by
  decide

theorem witness_DecSubtractsOne :
    s0.mem.wf ∧ s0page0.mem.wf ∧ 7 < (0x08 : Byte).toNat ∧ 7 < (0xFF : Byte).toNat := by
  decide

theorem witness_JmpGoesToTheOffsetInThePage : 7 < (0x08 : Byte).toNat ∧ 7 < (0xFF : Byte).toNat := by
  decide

theorem witness_JifJumpsWhenZeroFlagSet : 7 < (0x08 : Byte).toNat ∧ 7 < (0xFF : Byte).toNat := by
  decide

theorem witness_JniJumpsWhenZeroFlagClear : 7 < (0x08 : Byte).toNat ∧ 7 < (0xFF : Byte).toNat := by
  decide

end Sys2Proof.Machine.Tests
end

