-- ==== Sys2Proof/Proofs/StepDecoded.lean ====
section
/-!
PROOFS. The step of a running machine whose fetched bytes decode (`00_scope.md` R7; `10_state.md` R17).
-/
namespace Sys2Proof.Machine

/-- The branch of `step` a decoded instruction takes: exec starts from the state the fetch left (D5). -/
theorem step_of_decode_ok {s : State} {i : Instr} {rest : List Byte} (hrun : s.run = .running)
    (hdecode : decode (fetch s).1 = .ok (i, rest)) : step s = exec i (fetch s).2 := by
  simp only [step, hrun, hdecode]

/-- Settles O7: the step takes the branch of a decoded instruction, and a fetch changes only the number of draws. -/
theorem stepRunsTheDecodedInstruction : Obligations.StepRunsTheDecodedInstruction := by
  intro s i rest hrun hdecode
  obtain ⟨k, hfetch⟩ := fetch_snd s
  exact ⟨step_of_decode_ok hrun hdecode, k, hfetch⟩

end Sys2Proof.Machine
end

section
/-!
PROOFS. Fetching (`10_state.md` R17): the bytes at the pc, each as a read of its address sees it; then the step of a
machine whose memory holds an instruction's encoding at the pc.
-/
namespace Sys2Proof.Machine

/-! ## What a fetch gives -/

/-- How many bytes a fetch reads: the opcode byte and the operand bytes it asks for (`30_encoding.md` R50). -/
def State.fetchCount (s : State) : Nat :=
  1 + operandCount (s.sees s.pc 0)

/-- A fetch is one row of reads from the pc on, so that what `fetchBytes_eq` says of a row holds of it. -/
theorem fetch_eq_fetchBytes (s : State) : fetch s = fetchBytes s.fetchCount s.pc s := by
  rw [State.fetchCount, Nat.add_comm]
  rfl

/-- Byte `k` of a fetch is what a read of `pc + k` sees after the draws before it; only the draws change. -/
theorem fetch_eq (s : State) :
    fetch s = ((List.range s.fetchCount).map fun k => s.sees (s.pc + BitVec.ofNat 12 k) (deviceReadsFrom s.pc k),
      s.draw (deviceReadsFrom s.pc s.fetchCount)) := by
  have h := fetchBytes_eq s.fetchCount s.pc s 0
  simp only [State.draw_zero, Nat.zero_add] at h
  rw [fetch_eq_fetchBytes, h]

theorem fetch_length (s : State) : (fetch s).1.length = s.fetchCount := by
  rw [fetch_eq, List.length_map, List.length_range]

theorem fetch_getElem (s : State) (k : Nat) (h : k < (fetch s).1.length) :
    (fetch s).1[k] = s.sees (s.pc + BitVec.ofNat 12 k) (deviceReadsFrom s.pc k) := by
  simp only [fetch_eq, List.getElem_map, List.getElem_range]

/-- Addresses that avoid the device make no draw. -/
theorem deviceReadsFrom_of_ne {a : Addr} {n : Nat} (h : ∀ k, k < n → a + BitVec.ofNat 12 k ≠ 0x080) :
    deviceReadsFrom a n = 0 := by
  induction n with
  | zero => rfl
  | succ n ih =>
    rw [deviceReadsFrom, ih fun k hk => h k (Nat.lt_succ_of_lt hk), deviceReads_of_ne (h n n.lt_succ_self)]

/-- A fetch that meets no address of the device makes no draw. -/
theorem fetch_snd_of_ne {s : State} (h : ∀ k, k < s.fetchCount → s.pc + BitVec.ofNat 12 k ≠ 0x080) :
    (fetch s).2 = s := by
  rw [fetch_eq, deviceReadsFrom_of_ne h, State.draw_zero]

/-- Settles O9: a fetch is a row of reads from the pc on. -/
theorem fetchReadsTheBytesAtThePc : Obligations.FetchReadsTheBytesAtThePc := by
  intro s
  refine ⟨fetch_length s, fetch_getElem s, by rw [fetch_eq]; rfl, fun hne => ⟨fetch_snd_of_ne hne, fun k hk => ?_⟩⟩
  have hk' : k < s.fetchCount := fetch_length s ▸ hk
  rw [fetch_getElem, State.sees_of_ne s (hne k hk')]

/-- Settles O10: no address of a fetch, and no read it makes, takes part of a register. -/
theorem fetchIgnoresThePage : Obligations.FetchIgnoresThePage := by
  intro s regs
  rw [fetch_eq, fetch_eq]
  exact ⟨rfl, rfl⟩

/-! ## An instruction's encoding in memory -/

/-- The encoder and the decoder agree on an instruction: its opcode asks for as many bytes as follow it, and its bytes
decode to it. -/
def DecodesBack (i : Instr) : Prop :=
  (∀ op operands, encode i = op :: operands → operandCount op = operands.length) ∧ decode (encode i) = .ok (i, [])

theorem decodesBack_of_layout {i : Instr} {op : Byte} {operands : List Byte} {l : Layout}
    (hbytes : encode i = op :: operands) (hl : layoutOf op = some l) (hcount : l.operandTypes.length = operands.length)
    (hdecode : decode (op :: operands) = .ok (i, [])) : DecodesBack i := by
  refine ⟨fun op' operands' h => ?_, hbytes ▸ hdecode⟩
  obtain ⟨rfl, rfl⟩ := List.cons.inj (hbytes.symm.trans h)
  simp only [operandCount, hl, hcount]

/-- Every instruction decodes back (`30_encoding.md` R50, R52, R53), by the law of its format. -/
theorem decodesBack (i : Instr) : DecodesBack i := by
  cases i with
  | brk | shw => exact decodesBack_of_layout rfl rfl rfl (decodesN_of_layout rfl [])
  | disI b | clsI b | jmpI b => exact decodesBack_of_layout rfl rfl rfl (decodesB_of_layout (.inl rfl) b [])
  | disA b | sblA b | sbrA b | rblA b | rbrA b | notA b | incA b | decA b =>
    exact decodesBack_of_layout rfl rfl rfl (decodesB_of_layout (.inr rfl) b [])
  | disR r | inR r | sblR r | sbrR r | rblR r | rbrR r | notR r | incR r | decR r | jmpR r =>
    exact decodesBack_of_layout rfl rfl rfl ((decodesR_of_layout rfl).1 r [])
  | movRI r b | andRI r b | orRI r b | xorRI r b | addRI r b | subRI r b | milRI r b =>
    exact decodesBack_of_layout rfl rfl rfl ((decodesRB_of_layout (.inl rfl)).1 r b [])
  | movRA r b | andRA r b | orRA r b | xorRA r b | addRA r b | subRA r b | milRA r b | mfiRA r b =>
    exact decodesBack_of_layout rfl rfl rfl ((decodesRB_of_layout (.inr rfl)).1 r b [])
  | movAR b r | andAR b r | orAR b r | xorAR b r | addAR b r | subAR b r | milAR b r | mfiAR b r =>
    exact decodesBack_of_layout rfl rfl rfl ((decodesBR_of_layout (.inl rfl)).1 b r [])
  | outIR b r | jifIR b r | jniIR b r =>
    exact decodesBack_of_layout rfl rfl rfl ((decodesBR_of_layout (.inr rfl)).1 b r [])
  | movRR r q | andRR r q | orRR r q | xorRR r q | addRR r q | subRR r q | milRR r q | mfiRR r q =>
    exact decodesBack_of_layout rfl rfl rfl ((decodesRR_of_layout rfl).1 r q [])
  | outII b c | jifII b c | jniII b c => exact decodesBack_of_layout rfl rfl rfl (decodesBB_of_layout (.inl rfl) b c [])
  | outIA b c => exact decodesBack_of_layout rfl rfl rfl (decodesBB_of_layout (.inr (.inl rfl)) b c [])
  | mfiAA b c => exact decodesBack_of_layout rfl rfl rfl (decodesBB_of_layout (.inr (.inr rfl)) b c [])

/-- The bytes of the list stand at the pc and the addresses after it, none of them the device's. -/
def State.HoldsAtPc (s : State) (bytes : List Byte) : Prop :=
  ∀ (k : Nat) (h : k < bytes.length), s.pc + BitVec.ofNat 12 k ≠ 0x080 ∧ s.byteAt (s.pc + BitVec.ofNat 12 k) = bytes[k]

/-- A fetch reads as many bytes as the instruction at the pc has. -/
theorem fetchCount_of_holds {s : State} {i : Instr} (h : s.HoldsAtPc (encode i)) :
    s.fetchCount = (encode i).length := by
  have hcount := (decodesBack i).1
  have hdecode := (decodesBack i).2
  rcases hbytes : encode i with _ | ⟨op, operands⟩
  · simp [hbytes, decode] at hdecode
  · rw [hbytes] at h
    obtain ⟨hne, hbyte⟩ := h 0 (Nat.zero_lt_succ _)
    have hsees : s.sees s.pc 0 = op := by
      rw [BitVec.add_zero] at hne hbyte
      rw [State.sees_of_ne s hne, hbyte]
      rfl
    rw [State.fetchCount, hsees, hcount op operands hbytes, List.length_cons, Nat.add_comm]

/-- A fetch gives the bytes of the instruction at the pc and makes no draw. -/
theorem fetch_of_holds {s : State} {i : Instr} (h : s.HoldsAtPc (encode i)) : fetch s = (encode i, s) := by
  have hcount := fetchCount_of_holds h
  refine Prod.ext (List.ext_getElem (by rw [fetch_length, hcount]) fun k hk hk' => ?_)
    (fetch_snd_of_ne fun k hk => (h k (hcount ▸ hk)).1)
  obtain ⟨hne, hbyte⟩ := h k hk'
  rw [fetch_getElem, State.sees_of_ne s hne, hbyte]

/-- Settles O8: the fetch gives the encoding, which decodes back to the instruction. -/
theorem stepRunsTheInstructionInMemory : Obligations.StepRunsTheInstructionInMemory := by
  intro s i hrun hbytes
  have hfetch : fetch s = (encode i, s) := fetch_of_holds hbytes
  have hdecode : decode (fetch s).1 = .ok (i, []) := by
    rw [hfetch]
    exact (decodesBack i).2
  rw [step_of_decode_ok hrun hdecode, hfetch]

end Sys2Proof.Machine
end

section
/-!
PROOFS. What an instruction does to a state, said once: every meaning ends in one of five ways, with the values and the
draws fixed before it. The frame and invariant statements are derived from these five and not from the 62 meanings.
-/
namespace Sys2Proof.Machine

/-- The number of the register a place is, where it is one. -/
def Place.register? : Place → Option Nat
  | .reg r => some r.val
  | .mem _ => none

/-- The ways an instruction's meaning ends from a state `s`, each a function of the state it then changes: it writes a
result and sets ZF, sends an event, shows a value, halts, or writes the pc. The values and the number of draws `k` are
taken from `s`; the mnemonics are those that end so. -/
inductive Effect (i : Instr) (s : State) : (State → State) → Prop where
  | retire (p : Place) (v z : Byte) (k : Nat) (hzf : i.writesZF = true) (hdest : i.destination = p.register?) :
    Effect i s fun t => Machine.retire p v z i.length (t.draw k)
  | send (e : Event) (k : Nat) (hmn : i.statement.mnemonic ∈ [Mnemonic.OUT, .SHW, .CLS])
      (hshow : ∀ bytes, e = .show bytes → bytes.length = 128) :
    Effect i s fun t => ((t.draw k).emit e).advance i.length
  | display (v : Byte) (k : Nat) (hmn : i.statement.mnemonic = .DIS) :
    Effect i s fun t => (((t.draw k).setDisp v).emit (.disp v)).advance i.length
  | halt (hmn : i.statement.mnemonic = .BRK) :
    Effect i s fun t => (t.advance i.length).halt
  | jump (target : Addr) (hjump : i.isJump = true)
      (htarget : target = s.pc + BitVec.ofNat 12 i.length ∨ ∃ off, target = s.ea off) :
    Effect i s fun t => t.setPc target

/-- An instruction does from `s` what one effect says, and does the same whatever `disp` holds: no operand is taken from
it (`10_state.md` R19). -/
def HasEffect (i : Instr) (s : State) : Prop :=
  ∃ f, Effect i s f ∧ ∀ u, exec i (s.setDisp u) = .next (f (s.setDisp u))

/-! ## Reading, whatever `disp` holds -/

theorem readPlace_setDisp (p : Place) (s : State) :
    ∃ v k, ∀ u, readPlace p (s.setDisp u) = (v, (s.setDisp u).draw k) := by
  cases p with
  | reg r => exact ⟨s.getReg r, 0, fun _ => rfl⟩
  | mem a => exact ⟨s.sees a 0, deviceReads a, fun u => (s.setDisp u).memRead_eq a⟩

theorem readSource_setDisp (src : Source) (s : State) :
    ∃ v k, ∀ u, readSource src (s.setDisp u) = (v, (s.setDisp u).draw k) := by
  cases src with
  | imm v => exact ⟨v, 0, fun _ => rfl⟩
  | place p => exact readPlace_setDisp p s

theorem viaMem_snd (a : Byte) (s : State) : ∃ j, (viaMem a s).2 = s.draw j :=
  ⟨_, congrArg Prod.snd (viaMem_eq a s)⟩

/-! ## The shapes that retire -/

/-- From `s`, whatever `disp` holds, `f` writes one byte to `p` and sets ZF, over `n` bytes. -/
def Retires (p : Place) (n : Nat) (f : State → State) (s : State) : Prop :=
  ∃ v z k, ∀ u, f (s.setDisp u) = retire p v z n ((s.setDisp u).draw k)

theorem move_retires (p : Place) (src : Source) (n : Nat) (s : State) : Retires p n (move p src n) s := by
  obtain ⟨v, k, hread⟩ := readSource_setDisp src s
  exact ⟨v, v, k, fun u => by simp only [move, hread]⟩

theorem moveFlagPointer_retires (p : Place) (ptr : Byte) (src : Source) (n : Nat) (s : State) :
    Retires p n (moveFlagPointer p ptr src n) s := by
  obtain ⟨v, k, hread⟩ := readSource_setDisp src s
  exact ⟨v, ptr, k, fun u => by simp only [moveFlagPointer, hread]⟩

theorem unary_retires (f : Byte → Byte) (p : Place) (n : Nat) (s : State) : Retires p n (unary f p n) s := by
  obtain ⟨v, k, hread⟩ := readPlace_setDisp p s
  exact ⟨f v, f v, k, fun u => by simp only [unary, hread]⟩

theorem binary_retires (f : Byte → Byte → Byte) (p : Place) (src : Source) (n : Nat) (s : State) :
    Retires p n (binary f p src n) s := by
  obtain ⟨x, j, hx⟩ := readPlace_setDisp p s
  obtain ⟨y, k, hy⟩ := readSource_setDisp src (s.draw j)
  refine ⟨f x y, f x y, j + k, fun u => ?_⟩
  have hy' : readSource src ((s.setDisp u).draw j) = (y, ((s.setDisp u).draw j).draw k) := hy u
  simp only [binary, hx, hy', State.draw_draw]

/-! ## Each instruction by its shape -/

/-- An instruction that retires after `j` draws for a pointer. -/
theorem hasEffect_of_retires_after {i : Instr} {s s₁ : State} {p : Place} {f : State → State}
    (hptr : ∃ j, s₁ = s.draw j) (hf : Retires p i.length f s₁) (hzf : i.writesZF = true)
    (hdest : i.destination = p.register?) (hexec : ∀ u, exec i (s.setDisp u) = .next (f (s₁.setDisp u))) :
    HasEffect i s := by
  obtain ⟨j, rfl⟩ := hptr
  obtain ⟨v, z, k, hf⟩ := hf
  refine ⟨_, .retire p v z (j + k) hzf hdest, fun u => ?_⟩
  rw [hexec, hf, ← State.draw_draw]
  rfl

theorem hasEffect_of_retires {i : Instr} {s : State} {p : Place} {f : State → State}
    (hf : Retires p i.length f s) (hzf : i.writesZF = true) (hdest : i.destination = p.register?)
    (hexec : ∀ u, exec i (s.setDisp u) = .next (f (s.setDisp u))) : HasEffect i s :=
  hasEffect_of_retires_after ⟨0, rfl⟩ hf hzf hdest hexec

/-- An instruction that sends its source's value, by an event that is no `Show`. -/
theorem hasEffect_of_send {i : Instr} {s : State} (event : Byte → Event) (src : Source)
    (hmn : i.statement.mnemonic ∈ [Mnemonic.OUT, .SHW, .CLS]) (hevent : ∀ v bytes, event v ≠ .show bytes)
    (hexec : ∀ u, exec i (s.setDisp u) = .next (Machine.send event src i.length (s.setDisp u))) : HasEffect i s := by
  obtain ⟨v, k, hread⟩ := readSource_setDisp src s
  refine ⟨_, .send (event v) k hmn fun bytes h => absurd h (hevent v bytes), fun u => ?_⟩
  rw [hexec, Machine.send, hread]

theorem hasEffect_of_display {i : Instr} {s : State} (src : Source) (hmn : i.statement.mnemonic = .DIS)
    (hexec : ∀ u, exec i (s.setDisp u) = .next (Machine.display src i.length (s.setDisp u))) : HasEffect i s := by
  obtain ⟨v, k, hread⟩ := readSource_setDisp src s
  refine ⟨_, .display v k hmn, fun u => ?_⟩
  rw [hexec, Machine.display, hread]

theorem hasEffect_of_branch {i : Instr} {s : State} (taken : Bool) (off : Byte) (hjump : i.isJump = true)
    (hexec : ∀ u, exec i (s.setDisp u) = .next (branch taken off i.length (s.setDisp u))) : HasEffect i s := by
  refine ⟨_, .jump (if taken then s.ea off else s.pc + BitVec.ofNat 12 i.length) hjump ?_, hexec⟩
  cases taken with
  | true => exact .inr ⟨off, rfl⟩
  | false => exact .inl rfl

theorem displayBuffer_length (s : State) : s.displayBuffer.length = 128 := by
  rw [State.displayBuffer, List.length_map, List.length_range]

/-- Every instruction has an effect, by the shape its meaning is written with. -/
theorem hasEffect (i : Instr) (s : State) : HasEffect i s := by
  cases i with
  | movRI d b => exact hasEffect_of_retires (move_retires (.reg d) (.imm b) ..) rfl rfl fun _ => rfl
  | movAR a r => exact hasEffect_of_retires (move_retires (direct a s) (.place (.reg r)) ..) rfl rfl fun _ => rfl
  | movRA d a => exact hasEffect_of_retires (move_retires (.reg d) (.place (direct a s)) ..) rfl rfl fun _ => rfl
  | movRR d r => exact hasEffect_of_retires (move_retires (.reg d) (.place (.reg r)) ..) rfl rfl fun _ => rfl
  | inR d => exact hasEffect_of_retires (move_retires (.reg d) (.place (.mem inputAddr)) ..) rfl rfl fun _ => rfl
  | mfiRR d p => exact hasEffect_of_retires (move_retires (.reg d) (.place (viaReg p s)) ..) rfl rfl fun _ => rfl
  | mfiAR a p => exact hasEffect_of_retires (move_retires (direct a s) (.place (viaReg p s)) ..) rfl rfl fun _ => rfl
  | mfiRA d a =>
    exact hasEffect_of_retires_after (viaMem_snd a s) (move_retires (.reg d) (.place (viaMem a s).1) ..) rfl rfl
      fun _ => rfl
  | mfiAA b a =>
    exact hasEffect_of_retires_after (viaMem_snd a s) (move_retires (direct b s) (.place (viaMem a s).1) ..) rfl rfl
      fun _ => rfl
  | milAR a r =>
    exact hasEffect_of_retires_after (viaMem_snd a s) (move_retires (viaMem a s).1 (.place (.reg r)) ..) rfl rfl
      fun _ => rfl
  | milRI p b =>
    exact hasEffect_of_retires (moveFlagPointer_retires (viaReg p s) (s.getReg p) (.imm b) ..) rfl rfl fun _ => rfl
  | milRR p r =>
    exact hasEffect_of_retires (moveFlagPointer_retires (viaReg p s) (s.getReg p) (.place (.reg r)) ..) rfl rfl
      fun _ => rfl
  | milRA p a =>
    exact hasEffect_of_retires (moveFlagPointer_retires (viaReg p s) (s.getReg p) (.place (direct a s)) ..) rfl rfl
      fun _ => rfl
  | sblR r | sbrR r | rblR r | rbrR r | notR r | incR r | decR r =>
    exact hasEffect_of_retires (unary_retires _ (.reg r) ..) rfl rfl fun _ => rfl
  | sblA a | sbrA a | rblA a | rbrA a | notA a | incA a | decA a =>
    exact hasEffect_of_retires (unary_retires _ (direct a s) ..) rfl rfl fun _ => rfl
  | andRI d b | orRI d b | xorRI d b | addRI d b | subRI d b =>
    exact hasEffect_of_retires (binary_retires _ (.reg d) (.imm b) ..) rfl rfl fun _ => rfl
  | andAR a r | orAR a r | xorAR a r | addAR a r | subAR a r =>
    exact hasEffect_of_retires (binary_retires _ (direct a s) (.place (.reg r)) ..) rfl rfl fun _ => rfl
  | andRA d a | orRA d a | xorRA d a | addRA d a | subRA d a =>
    exact hasEffect_of_retires (binary_retires _ (.reg d) (.place (direct a s)) ..) rfl rfl fun _ => rfl
  | andRR d r | orRR d r | xorRR d r | addRR d r | subRR d r =>
    exact hasEffect_of_retires (binary_retires _ (.reg d) (.place (.reg r)) ..) rfl rfl fun _ => rfl
  | outII p b => exact hasEffect_of_send (.out p) (.imm b) (.head _) nofun fun _ => rfl
  | outIR p r => exact hasEffect_of_send (.out p) (.place (.reg r)) (.head _) nofun fun _ => rfl
  | outIA p a => exact hasEffect_of_send (.out p) (.place (direct a s)) (.head _) nofun fun _ => rfl
  | clsI b => exact hasEffect_of_send .clear (.imm b) (.tail _ (.tail _ (.head _))) nofun fun _ => rfl
  | shw =>
    refine ⟨_, .send (.show s.displayBuffer) 0 (.tail _ (.head _)) fun bytes h => ?_, fun _ => rfl⟩
    exact Event.show.inj h ▸ displayBuffer_length s
  | disI b => exact hasEffect_of_display (.imm b) rfl fun _ => rfl
  | disR r => exact hasEffect_of_display (.place (.reg r)) rfl fun _ => rfl
  | disA a => exact hasEffect_of_display (.place (direct a s)) rfl fun _ => rfl
  | brk => exact ⟨_, .halt rfl, fun _ => rfl⟩
  | jmpI b => exact hasEffect_of_branch true b rfl fun _ => rfl
  | jmpR r => exact hasEffect_of_branch true (s.getReg r) rfl fun _ => rfl
  | jifII c b => exact hasEffect_of_branch (c = 1 && s.zf) b rfl fun _ => rfl
  | jifIR c r => exact hasEffect_of_branch (c = 1 && s.zf) (s.getReg r) rfl fun _ => rfl
  | jniII c b => exact hasEffect_of_branch (c = 1 && !s.zf) b rfl fun _ => rfl
  | jniIR c r => exact hasEffect_of_branch (c = 1 && !s.zf) (s.getReg r) rfl fun _ => rfl

/-- The effect behind the state an instruction answers. -/
theorem effect_of_exec {i : Instr} {s t : State} (h : exec i s = .next t) :
    ∃ f, Effect i s f ∧ t = f s ∧ ∀ u, exec i (s.setDisp u) = .next (f (s.setDisp u)) := by
  obtain ⟨f, hf, hexec⟩ := hasEffect i s
  exact ⟨f, hf, Host.Outcome.next.inj (h.symm.trans (hexec s.disp)), hexec⟩

end Sys2Proof.Machine
end

section
/-!
PROOFS. What every effect, and so every instruction, leaves unchanged: the registers (`10_state.md` R11 to R16), the pc
(R18), `disp` (R19) and the trace (R20).
-/
namespace Sys2Proof.Machine

/-! ## The frame of a retiring instruction -/

@[simp] theorem retire_pc (p : Place) (v z : Byte) (n : Nat) (t : State) :
    (retire p v z n t).pc = t.pc + BitVec.ofNat 12 n := by
  cases p <;> rfl

@[simp] theorem retire_run (p : Place) (v z : Byte) (n : Nat) (t : State) : (retire p v z n t).run = t.run := by
  cases p <;> rfl

@[simp] theorem retire_trace (p : Place) (v z : Byte) (n : Nat) (t : State) :
    (retire p v z n t).trace = t.trace := by
  cases p <;> rfl

theorem retire_setDisp (p : Place) (v z : Byte) (n : Nat) (t : State) (u : Byte) :
    retire p v z n (t.setDisp u) = (retire p v z n t).setDisp u := by
  cases p <;> rfl

theorem retire_wf {t : State} (ht : t.mem.wf) (p : Place) (v z : Byte) (n : Nat) : (retire p v z n t).mem.wf := by
  cases p with
  | reg r => exact ht
  | mem a => exact State.memWrite_wf ht a v

theorem writePlace_getReg_ne {p : Place} {r : RegName} (hp : p.register? ≠ some r.val) (v : Byte) (t : State) :
    (writePlace p v t).getReg r = t.getReg r := by
  cases p with
  | reg d => exact t.getReg_setReg_ne v fun h => hp (h ▸ rfl)
  | mem a => rfl

theorem retire_getReg_ne {p : Place} {r : RegName} (hp : p.register? ≠ some r.val) (h7 : r ≠ r7) (v z : Byte) (n : Nat)
    (t : State) : (retire p v z n t).getReg r = t.getReg r := by
  rw [retire, State.getReg_advance, State.getReg_setZF_ne _ _ h7, writePlace_getReg_ne hp]

/-- Setting the flag leaves bits 7:1 (`10_state.md` R15). -/
theorem withFlag_masked (w z : Byte) : withFlag w z &&& 0xFE = w &&& 0xFE := by
  rw [withFlag, BitVec.and_or_distrib_right, BitVec.and_assoc]
  split <;> simp

theorem retire_control {p : Place} (hp : p.register? ≠ some 7) (v z : Byte) (n : Nat) (t : State) :
    (retire p v z n t).getReg r7 &&& 0xFE = t.getReg r7 &&& 0xFE := by
  rw [retire, State.getReg_advance, State.getReg_setZF_same, withFlag_masked, writePlace_getReg_ne hp]

/-! ## Sending -/

/-- What is sent between `s` and `t`: at most one event, and a `Show` with the 128 bytes of the display buffer
(`41_io_system.md` R99). -/
def SendsAtMostOne (s t : State) : Prop :=
  ∃ events, t.trace = s.trace ++ events ∧ events.length ≤ 1 ∧ ∀ bytes, Event.show bytes ∈ events → bytes.length = 128

theorem sendsAtMostOne_of_trace {s t : State} (h : t.trace = s.trace) : SendsAtMostOne s t :=
  ⟨[], by rw [h, List.append_nil], Nat.zero_le 1, nofun⟩

/-! ## The five effects -/

section Effects

variable {i : Instr} {s : State} {f : State → State}

/-! ## Registers -/

theorem Effect.getReg_ne (hf : Effect i s f) (t : State) {r : RegName} (h7 : r ≠ r7)
    (hdest : i.destination ≠ some r.val) : (f t).getReg r = t.getReg r := by
  cases hf with
  | retire p v z k _ hp => exact retire_getReg_ne (hp ▸ hdest) h7 ..
  | send | display | halt | jump => rfl

theorem Effect.control (hf : Effect i s f) (t : State) (hdest : i.destination ≠ some 7) :
    (f t).getReg r7 &&& 0xFE = t.getReg r7 &&& 0xFE := by
  cases hf with
  | retire p v z k _ hp => exact retire_control (hp ▸ hdest) ..
  | send | display | halt | jump => rfl

theorem Effect.getReg_of_not_writesZF (hf : Effect i s f) (t : State) (hzf : i.writesZF = false) (r : RegName) :
    (f t).getReg r = t.getReg r := by
  cases hf with
  | retire p v z k hwrites => exact absurd hwrites (hzf ▸ Bool.false_ne_true)
  | send | display | halt | jump => rfl

/-! ## The pc -/

/-- The page of an effective address (`20_memory.md` R30). -/
theorem ea_page (s : State) (off : Byte) : (s.ea off).extractLsb' 8 4 = s.page :=
  BitVec.extractLsb'_append_eq_left

theorem Effect.pc (hf : Effect i s f) :
    (f s).pc = s.pc + BitVec.ofNat 12 i.length ∨ (i.isJump = true ∧ (f s).pc.extractLsb' 8 4 = s.page) := by
  cases hf with
  | retire p v z k => exact .inl (retire_pc ..)
  | send | display | halt => exact .inl rfl
  | jump target hjump htarget =>
    rcases htarget with rfl | ⟨off, rfl⟩
    · exact .inl rfl
    · exact .inr ⟨hjump, ea_page s off⟩

/-! ## The display register -/

/-- `DIS` has the effect that writes `disp` and sends it. -/
theorem Effect.of_dis (hf : Effect i s f) (hmn : i.statement.mnemonic = .DIS) :
    ∃ v k, f = fun t => (((t.draw k).setDisp v).emit (.disp v)).advance i.length := by
  cases hf with
  | display v k => exact ⟨v, k, rfl⟩
  | retire p v z k hzf => simp [Instr.writesZF, hmn] at hzf
  | jump target hjump => simp [Instr.isJump, hmn] at hjump
  | send e k hsend => simp [hmn] at hsend
  | halt hhalt => simp [hmn] at hhalt

/-- Every other effect does to any state what it does to that state with another `disp`. -/
theorem Effect.setDisp (hf : Effect i s f) (hmn : i.statement.mnemonic ≠ .DIS) (t : State) (u : Byte) :
    f (t.setDisp u) = (f t).setDisp u := by
  cases hf with
  | retire p v z k => exact retire_setDisp p v z i.length (t.draw k) u
  | display v k hdis => exact absurd hdis hmn
  | send | halt | jump => rfl

/-- Only `DIS` writes `disp`: setting it to what it holds commutes with every other effect. -/
theorem Effect.disp (hf : Effect i s f) (hmn : i.statement.mnemonic ≠ .DIS) (t : State) : (f t).disp = t.disp := by
  have h : (f (t.setDisp t.disp)).disp = ((f t).setDisp t.disp).disp := by rw [hf.setDisp hmn]
  exact h

/-! ## The trace -/

theorem Effect.sends (hf : Effect i s f) (t : State) : SendsAtMostOne t (f t) := by
  cases hf with
  | send e k _ hshow => exact ⟨[e], rfl, Nat.le_refl 1, fun bytes h => hshow bytes (List.mem_singleton.mp h).symm⟩
  | display v k => exact ⟨[.disp v], rfl, Nat.le_refl 1, fun bytes h => nomatch List.mem_singleton.mp h⟩
  | retire p v z k => exact sendsAtMostOne_of_trace (retire_trace ..)
  | halt | jump => exact sendsAtMostOne_of_trace rfl

theorem Effect.trace_of_silent (hf : Effect i s f) (t : State)
    (hmn : i.statement.mnemonic ∉ [Mnemonic.OUT, .SHW, .CLS, .DIS]) : (f t).trace = t.trace := by
  cases hf with
  | send e k hsend => exact absurd (List.mem_append_left [Mnemonic.DIS] hsend) hmn
  | display v k hdis => exact absurd (by simp [hdis]) hmn
  | retire p v z k => exact retire_trace ..
  | halt | jump => rfl

/-! ## The memory and the run state -/

theorem Effect.mem_wf (hf : Effect i s f) {t : State} (ht : t.mem.wf) : (f t).mem.wf := by
  cases hf with
  | retire p v z k => exact retire_wf (t := t.draw k) ht p v z i.length
  | send | display | halt | jump => exact ht

theorem Effect.run (hf : Effect i s f) (t : State) : (f t).run = t.run ∨ (f t).run = .halted := by
  cases hf with
  | retire p v z k => exact .inl (retire_run ..)
  | send | display | jump => exact .inl rfl
  | halt => exact .inr rfl

end Effects

/-! ## What an instruction changes -/

/-- Settles O29: of the five effects only the one that retires writes a register. -/
theorem registersChangeOnlyAsNamed : Obligations.RegistersChangeOnlyAsNamed := by
  intro i s t h
  obtain ⟨f, hf, rfl, -⟩ := effect_of_exec h
  exact ⟨fun r h7 hdest => hf.getReg_ne s h7 hdest, hf.control s, hf.getReg_of_not_writesZF s⟩

/-- Settles O30: of the five effects only a jump may leave the pc elsewhere than after the instruction. -/
theorem pcGoesOnOrJumpsInThePage : Obligations.PcGoesOnOrJumpsInThePage := by
  intro i s t h
  obtain ⟨f, hf, rfl, -⟩ := effect_of_exec h
  rcases hf.pc with hpc | ⟨hjump, hpage⟩
  · exact ⟨fun _ => hpc, .inl hpc⟩
  · exact ⟨fun hno => absurd hjump (hno ▸ Bool.false_ne_true), .inr hpage⟩

/-- Settles O60: an effect is the same whatever `disp` holds, and only the one of `DIS` writes it. -/
theorem dispIsWrittenByDisAndReadByNone : Obligations.DispIsWrittenByDisAndReadByNone := by
  refine ⟨fun _ _ => ⟨_, rfl, rfl⟩, fun _ _ => ⟨_, rfl, rfl⟩, fun _ _ => ⟨_, rfl, rfl⟩, ?_,
    State.setReg_disp, fun v regs image => State.start_disp regs v image⟩
  intro i s t v h
  obtain ⟨f, hf, rfl, hexec⟩ := effect_of_exec h
  constructor
  · intro hdis
    obtain ⟨w, k, rfl⟩ := hf.of_dis hdis
    exact hexec v
  · intro hdis
    exact ⟨hf.disp hdis s, (hexec v).trans (congrArg _ (hf.setDisp hdis s v))⟩

end Sys2Proof.Machine
end

section
/-!
PROOFS. What a step keeps: the invariant (`10_state.md` section 7, `60_exceptions.md` R181) and the trace (R20), by the
effects of the instructions and the faults of rejected bytes.
-/
namespace Sys2Proof.Machine

/-! ## The fault of rejected bytes (`60_exceptions.md` R182, R183) -/

/-- Why the operand bytes of a format are rejected: they end too soon, or one in a REG position is above 7. -/
def RejectsOperands (op : Byte) (l : Layout) (e : DecodeError) : Prop :=
  e = .truncated ∨ ∃ k b, e = .illegalRegister op k b ∧ 7 < b.toNat ∧ l.operandTypes[slotIndex k]? = some .REG

/-- A rejected REG byte rejects the operands of every format that has a register at its position. -/
theorem rejectsOperands_of_map {α : Type} {op b : Byte} {k : Slot} {l : Layout} {g : RegName → α} {e : DecodeError}
    (hk : l.operandTypes[slotIndex k]? = some .REG) (h : (regOperand op k b).map g = .error e) :
    RejectsOperands op l e := by
  rcases regOperand_cases op k b with ⟨r, -, hr⟩ | ⟨hb, hr⟩
  · rw [hr] at h
    cases h
  · rw [hr] at h
    cases h
    exact .inr ⟨k, b, rfl, hb, hk⟩

theorem decodeOperands_error {op : Byte} {l : Layout} {bytes : List Byte} {e : DecodeError}
    (h : decodeOperands op l bytes = .error e) : RejectsOperands op l e := by
  revert h
  fun_cases decodeOperands op l bytes with
  -- Formats without a register (N, I, A, II, IA, AA) reject nothing.
  | case1 | case3 | case4 | case10 | case12 | case13 => exact nofun
  -- R, RI, RA: the register is the first operand.
  | case2 | case5 | case7 => exact rejectsOperands_of_map (k := .op1) rfl
  -- AR, RR past its first register, IR: the register is the second operand.
  | case6 | case8 | case11 => exact rejectsOperands_of_map (k := .op2) rfl
  -- RR at its first register.
  | case9 mk b c rest e' hfirst =>
    intro h
    cases h
    exact rejectsOperands_of_map (k := .op1) (g := id) rfl (congrArg (Except.map id) hfirst)
  -- Too few bytes for the format.
  | case14 => exact fun h => .inl (Except.error.inj h).symm

theorem faultOf_justified {bytes : List Byte} {e : DecodeError} (h : decode bytes = .error e) (pc : Addr) :
    (faultOf pc e).justified pc := by
  have unassigned : Fault.justified pc (.illegalOpcode pc 0) := ⟨rfl, rfl⟩
  cases bytes with
  | nil =>
    cases h
    exact unassigned
  | cons op rest =>
    rw [decode] at h
    split at h
    next l hl =>
      rcases decodeOperands_error h with rfl | ⟨k, b, rfl, hb, hreg⟩
      · exact unassigned
      · exact ⟨rfl, hb, l, hl, hreg⟩
    next hnone =>
      cases h
      exact ⟨rfl, hnone⟩

/-! ## What a step changes -/

/-- A step that answers runs an instruction's effect after the draws of its fetch, or raises the fault of rejected
bytes, or leaves a halted machine as it is. -/
theorem effect_of_step {s t : State} (h : step s = .next t) :
    (∃ i f k, s.run = .running ∧ Effect i (s.draw k) f ∧ t = f (s.draw k)) ∨
    (∃ e, decode (fetch s).1 = .error e ∧ t = s.raise (faultOf s.pc e)) ∨
    (s.run = .halted ∧ t = s) := by
  rcases step_cases s with ⟨i, rest, k, hrun, -, -, hstep⟩ | ⟨e, -, hdecode, hstep⟩ | ⟨hrun, hstep⟩ | ⟨r, -, hstep⟩
  · obtain ⟨f, hf, ht, -⟩ := effect_of_exec (hstep.symm.trans h)
    exact .inl ⟨i, f, k, hrun, hf, ht⟩
  · exact .inr (.inl ⟨e, hdecode, Host.Outcome.next.inj (h.symm.trans hstep)⟩)
  · exact .inr (.inr ⟨hrun, Host.Outcome.next.inj (h.symm.trans hstep)⟩)
  · cases hstep.symm.trans h

theorem step_sends {s t : State} (h : step s = .next t) : SendsAtMostOne s t := by
  rcases effect_of_step h with ⟨i, f, k, -, hf, rfl⟩ | ⟨e, -, rfl⟩ | ⟨-, rfl⟩
  · exact hf.sends (s.draw k)
  · exact sendsAtMostOne_of_trace rfl
  · exact sendsAtMostOne_of_trace rfl

theorem step_mem_wf {s t : State} (hs : s.mem.wf) (h : step s = .next t) : t.mem.wf := by
  rcases effect_of_step h with ⟨i, f, k, -, hf, rfl⟩ | ⟨e, -, rfl⟩ | ⟨-, rfl⟩
  · exact hf.mem_wf (t := s.draw k) hs
  · exact hs
  · exact hs

/-- A machine that a step leaves faulted has just met bytes that decoding rejects. -/
theorem step_reason {s t : State} {r : Fault} (h : step s = .next t) (hr : t.run = .faulted r) :
    r.justified t.pc := by
  rcases effect_of_step h with ⟨i, f, k, hrun, hf, rfl⟩ | ⟨e, hdecode, rfl⟩ | ⟨hrun, rfl⟩
  · rcases hf.run (s.draw k) with hsame | hhalted
    · cases hr.symm.trans (hsame.trans hrun)
    · cases hr.symm.trans hhalted
  · cases hr
    exact faultOf_justified hdecode s.pc
  · cases hr.symm.trans hrun

/-- Settles O32: the effects say what an instruction sends, and a step that runs none sends nothing. -/
theorem traceIsAppendOnly : Obligations.TraceIsAppendOnly := by
  constructor
  · intro s t h
    obtain ⟨events, htrace, hcount, -⟩ := step_sends h
    exact ⟨events, htrace, hcount⟩
  · intro i s t h
    obtain ⟨f, hf, rfl, -⟩ := effect_of_exec h
    refine ⟨hf.trace_of_silent s, fun hdis => hf.disp hdis s, fun hdis => ?_⟩
    obtain ⟨v, k, rfl⟩ := hf.of_dis hdis
    rfl

/-- Settles O21: each part of the invariant by what a step can do to it. -/
theorem stepKeepsTheInvariant : Obligations.StepKeepsTheInvariant := by
  intro s t hs h
  obtain ⟨events, htrace, -, hshow⟩ := step_sends h
  refine ⟨step_mem_wf hs.memory h, fun r hr => step_reason h hr, fun bytes hbytes => ?_⟩
  rw [htrace] at hbytes
  rcases List.mem_append.mp hbytes with hold | hnew
  · exact hs.shown bytes hold
  · exact hshow bytes hnew

end Sys2Proof.Machine
end

section
/-!
PROOFS. Effective addresses (`20_memory.md` R30, R45): the page of R7 and the offset, side by side.
-/
namespace Sys2Proof.Machine

/-! ## The formula of the source -/

/-- PAGE as a number: the upper four bits of R7 (`10_state.md` R13). -/
theorem State.page_toNat (s : State) : s.page.toNat = (s.getReg r7).toNat / 16 := by
  have hfour : (s.getReg r7).toNat / 16 < 16 := Nat.div_lt_of_lt_mul (s.getReg r7).isLt
  rw [State.page, BitVec.extractLsb'_toNat, Nat.shiftRight_eq_div_pow]
  exact Nat.mod_eq_of_lt hfour

theorem State.ea_toNat (s : State) (off : Byte) : (s.ea off).toNat = (s.getReg r7).toNat / 16 * 256 + off.toNat := by
  rw [State.ea, BitVec.toNat_append, ← Nat.shiftLeft_add_eq_or_of_lt off.isLt, Nat.shiftLeft_eq, State.page_toNat]

/-- The four bits cut out of a byte are the ones shifted down and masked. -/
theorem State.page_setWidth (s : State) : s.page.setWidth 12 = ((s.getReg r7).setWidth 12 >>> 4) &&& 0x00F := by
  have hbyte : (s.getReg r7).toNat < 256 := (s.getReg r7).isLt
  have hmask : (0x00F : BitVec 12).toNat = 2 ^ 4 - 1 := rfl
  refine BitVec.eq_of_toNat_eq ?_
  simp only [BitVec.toNat_and, BitVec.toNat_ushiftRight, BitVec.toNat_setWidth, State.page_toNat, hmask,
    Nat.and_two_pow_sub_one_eq_mod, Nat.shiftRight_eq_div_pow]
  omega

/-- Masking a byte to 8 bits changes nothing. -/
theorem setWidth_and_0x0FF (off : Byte) : off.setWidth 12 &&& 0x0FF = off.setWidth 12 := by
  have hbyte : off.toNat < 256 := off.isLt
  have hmask : (0x0FF : BitVec 12).toNat = 2 ^ 8 - 1 := rfl
  refine BitVec.eq_of_toNat_eq ?_
  simp only [BitVec.toNat_and, BitVec.toNat_setWidth, hmask, Nat.and_two_pow_sub_one_eq_mod]
  omega

/-- Settles O23: in 12 bits, setting the page beside the offset is shifting it by 8 and joining it with the offset. -/
theorem effectiveAddressFormula : Obligations.EffectiveAddressFormula := by
  intro s off
  refine ⟨State.ea_toNat s off, ?_, fun t hpage => BitVec.eq_of_toNat_eq ?_⟩
  · rw [← State.page_setWidth, setWidth_and_0x0FF, ← BitVec.setWidth_append_eq_shiftLeft_setWidth_or,
      BitVec.setWidth_eq]
    rfl
  · rw [State.ea_toNat, State.ea_toNat, hpage]

/-! ## Every address has one page and offset -/

/-- The offset of an effective address; its page is `ea_page`. -/
theorem State.ea_offset (s : State) (off : Byte) : (s.ea off).extractLsb' 0 8 = off :=
  BitVec.extractLsb'_append_eq_right

/-- Every address is the one its own upper four and lower eight bits give. -/
theorem State.ea_of_page {s : State} {a : Addr} (h : s.page = a.extractLsb' 8 4) : s.ea (a.extractLsb' 0 8) = a := by
  rw [State.ea, h]
  exact BitVec.extractLsb'_append_extractLsb'

/-- There is a state with each page. -/
theorem exists_page (p : BitVec 4) : ∃ s : State, s.page = p :=
  ⟨State.reset.setReg r7 (p ++ 0#4), by
    rw [State.page, State.getReg_setReg_same]
    exact BitVec.extractLsb'_append_eq_left⟩

/-- Settles O24: the pair is the address cut in two, and an effective address gives its page and its offset back. -/
theorem everyAddressHasOnePageAndOffset : Obligations.EveryAddressHasOnePageAndOffset := by
  intro a
  refine ⟨(a.extractLsb' 8 4, a.extractLsb' 0 8), fun s => State.ea_of_page, fun ⟨page, off⟩ h => ?_⟩
  obtain ⟨s, hpage⟩ := exists_page page
  have ha : s.ea off = a := h s hpage
  rw [← ha, ea_page, State.ea_offset, hpage]

end Sys2Proof.Machine
end

section
/-!
PROOFS. Reads and writes of one byte (`20_memory.md` R33 to R35, R43), and the canonical form as a normal form of what
can be read (R38).
-/
namespace Sys2Proof.Machine

/-! ## One read and one write -/

theorem State.memRead_of_ne (s : State) {a : Addr} (h : a ≠ 0x080) : s.memRead a = (s.byteAt a, s) := by
  rw [State.memRead_eq, State.sees_of_ne s h, deviceReads_of_ne h, State.draw_zero]

/-- Settles O25: the reads by address; what 0x080 reads as is no byte of memory, so that no write takes part in it. -/
theorem readsSeeMemoryOrTheInputController : Obligations.ReadsSeeMemoryOrTheInputController := by
  intro s a
  exact ⟨State.memRead_of_ne s, s.memRead_eq 0x080, fun _ _ => rfl⟩

theorem State.memRead_memWrite_same {s : State} (hs : s.mem.wf) {a : Addr} (v : Byte) (ha : a ≠ 0x080) :
    ((s.memWrite a v).memRead a).1 = v := by
  rw [State.memRead_of_ne _ ha]
  exact State.byteAt_memWrite_same hs v ha

/-- Settles O26: the two laws of a byte after a write, and a write to the device keeps the memory it finds. -/
theorem writesAreReadBack : Obligations.WritesAreReadBack := by
  intro s a v hs
  exact ⟨State.memRead_memWrite_same hs v, fun b hb => s.byteAt_memWrite_ne v (.inl hb), rfl, _, rfl⟩

/-- Settles O28: the first byte of a fetch is the read of the byte at the pc. -/
theorem aStoreIsSeenByTheNextFetch : Obligations.AStoreIsSeenByTheNextFetch := by
  intro s a v hs ha
  have hopcode : (((s.memWrite a v).setPc a).memRead a).1 = v := State.memRead_memWrite_same hs v ha
  exact ⟨_, congrArg (· :: _) hopcode⟩

/-! ## The canonical form -/

/-- A byte that reads as something is listed. -/
theorem Memory.mem_of_read_ne {m : Memory} {a : Nat} (h : m.read a ≠ unlistedByte) : (a, m.read a) ∈ m := by
  induction m with
  | nil => exact absurd rfl h
  | cons c m ih =>
    rw [Memory.read] at h ⊢
    split at h
    next hc =>
      rw [if_pos hc, hc]
      exact List.mem_cons_self
    next hc =>
      rw [if_neg hc]
      exact List.mem_cons_of_mem c (ih h)

/-- Where addresses rise, no entry hides another. -/
theorem Memory.read_of_mem {m : Memory} (hm : m.Pairwise (fun c d => c.1 < d.1)) {c : Host.Cell} (hc : c ∈ m) :
    m.read c.1 = c.2 := by
  induction m with
  | nil => exact absurd hc List.not_mem_nil
  | cons d m ih =>
    obtain ⟨hd, hm⟩ := List.pairwise_cons.mp hm
    rcases List.mem_cons.mp hc with rfl | hc
    · exact if_pos rfl
    · rw [Memory.read, if_neg (Nat.ne_of_gt (hd c hc))]
      exact ih hm hc

/-- A canonical memory lists nothing that a memory reading the same does not list. -/
theorem Memory.subset_of_reads_same {m m' : Memory} (hm : m.wf)
    (hread : ∀ a : Addr, a ≠ 0x080 → m.read a.toNat = m'.read a.toNat) : m ⊆ m' := by
  intro c hc
  obtain ⟨hrising, hentries⟩ := hm
  obtain ⟨hlisted, hlt, hdevice⟩ := hentries c hc
  have haddr : (BitVec.ofNat 12 c.1).toNat = c.1 := Nat.mod_eq_of_lt hlt
  have hvalue : m'.read c.1 = c.2 := by
    have h := hread (BitVec.ofNat 12 c.1) fun h => hdevice (haddr.symm.trans (congrArg BitVec.toNat h))
    rw [haddr, Memory.read_of_mem hrising hc] at h
    exact h.symm
  have hmem : (c.1, m'.read c.1) ∈ m' := Memory.mem_of_read_ne (hvalue ▸ hlisted)
  rwa [hvalue] at hmem

/-- Settles O27: the two memories list the same entries, and both in the order of their addresses. -/
theorem canonicalMemoriesAreEqualData : Obligations.CanonicalMemoriesAreEqualData := by
  intro m m' hm hm' hread
  have hirrefl : Std.Irrefl fun c d : Host.Cell => c.1 < d.1 := ⟨fun c => Nat.lt_irrefl c.1⟩
  have hantisymm : Std.Antisymm fun c d : Host.Cell => c.1 < d.1 := ⟨fun _ _ h h' => absurd h' (Nat.lt_asymm h)⟩
  exact List.Subset.antisymm_of_pairwise hm.1 hm'.1 (Memory.subset_of_reads_same hm hread)
    (Memory.subset_of_reads_same hm' fun a ha => (hread a ha).symm)

end Sys2Proof.Machine
end

section
/-!
PROOFS. Where an instruction stores (`20_memory.md` R31, R32, R34), and what lets the input in (R35): every meaning reads
its operands one after the other and then writes, and only a read can make a draw.
-/
namespace Sys2Proof.Machine

/-! ## Reading, then writing -/

/-- The same state at another point of the input. -/
def State.atInput (s : State) (n : Nat) : State :=
  { s with inputReads := n }

/-- What `r` reads from `s` costs draws only, and where it cost none it is read at every other point of the input. -/
def Reads {α : Type} (r : State → α × State) (s : State) : Prop :=
  ∃ k, (r s).2 = s.draw k ∧ (k = 0 → ∀ n, r (s.atInput n) = ((r s).1, s.atInput n))

/-- `g` changes no byte of memory but the one at `dest`, and never 0x080; the input plays no part in it. -/
structure WritesAt (dest : Option Addr) (g : State → State) : Prop where
  byteAt : ∀ t b, dest ≠ some b ∨ b = 0x080 → (g t).byteAt b = t.byteAt b
  atInput : ∀ t n, g (t.atInput n) = (g t).atInput n

/-- From `s`, `f` makes `k` draws and then writes as `g` does; where it makes no draw it is `g` at every other point of
the input. -/
def ReadsThenWrites (dest : Option Addr) (f : State → State) (s : State) : Prop :=
  ∃ g k, WritesAt dest g ∧ f s = g (s.draw k) ∧ (k = 0 → ∀ n, f (s.atInput n) = g (s.atInput n))

theorem WritesAt.inputReads {dest : Option Addr} {g : State → State} (hg : WritesAt dest g) (t : State) :
    (g t).inputReads = t.inputReads := by
  have h : (g (t.atInput t.inputReads)).inputReads = ((g t).atInput t.inputReads).inputReads := by rw [hg.atInput]
  exact h

theorem WritesAt.readsThenWrites {dest : Option Addr} {g : State → State} (hg : WritesAt dest g) (s : State) :
    ReadsThenWrites dest g s :=
  ⟨g, 0, hg, rfl, fun _ _ => rfl⟩

/-- One more read before. -/
theorem Reads.andThen {α : Type} {r : State → α × State} {f : α → State → State} {dest : Option Addr} {s : State}
    (hr : Reads r s) (hf : ReadsThenWrites dest (f (r s).1) (r s).2) :
    ReadsThenWrites dest (fun t => f (r t).1 (r t).2) s := by
  obtain ⟨j, hj, hread⟩ := hr
  obtain ⟨g, k, hg, hk, hwrite⟩ := hf
  rw [hj] at hk hwrite
  refine ⟨g, j + k, hg, ?_, fun h n => ?_⟩
  · beta_reduce
    rw [hj, hk, State.draw_draw]
  · obtain ⟨hj0, hk0⟩ := Nat.add_eq_zero_iff.mp h
    beta_reduce
    rw [hread hj0 n]
    exact hwrite hk0 n

/-! ## The reads -/

theorem memRead_reads (a : Addr) (s : State) : Reads (State.memRead · a) s := by
  refine ⟨deviceReads a, congrArg Prod.snd (s.memRead_eq a), fun h n => ?_⟩
  have ha : a ≠ 0x080 := fun ha => by simp [deviceReads, ha] at h
  simp only [State.memRead_of_ne _ ha]
  rfl

theorem readPlace_reads (p : Place) (s : State) : Reads (readPlace p) s := by
  cases p with
  | reg r => exact ⟨0, rfl, fun _ _ => rfl⟩
  | mem a => exact memRead_reads a s

theorem readSource_reads (src : Source) (s : State) : Reads (readSource src) s := by
  cases src with
  | imm v => exact ⟨0, rfl, fun _ _ => rfl⟩
  | place p => exact readPlace_reads p s

/-- A pointer byte names a byte of the page that `s` selects, at every point of the input. -/
theorem viaMem_reads (a : Byte) (s : State) : Reads (viaMem a) s := by
  obtain ⟨k, hdraw, hread⟩ := memRead_reads (s.ea a) s
  exact ⟨k, hdraw, fun h n => congrArg (fun ptr : Byte × State => (Place.mem (s.ea ptr.1), ptr.2)) (hread h n)⟩

/-! ## The writes -/

theorem retire_writesAt (p : Place) (v z : Byte) (n : Nat) : WritesAt p.address? (retire p v z n) := by
  cases p with
  | reg r => exact ⟨fun _ _ _ => rfl, fun _ _ => rfl⟩
  | mem a =>
    refine ⟨fun t b hb => t.byteAt_memWrite_ne v ?_, fun _ _ => rfl⟩
    rcases hb with hb | rfl
    · exact .inl fun h => hb (congrArg some h.symm)
    · exact (Decidable.em (a = inputAddr)).elim .inr fun h => .inl (Ne.symm h)

theorem emit_writesAt (e : Event) (n : Nat) : WritesAt none fun t => (t.emit e).advance n :=
  ⟨fun _ _ _ => rfl, fun _ _ => rfl⟩

theorem setDisp_writesAt (v : Byte) (n : Nat) :
    WritesAt none fun t => ((t.setDisp v).emit (.disp v)).advance n :=
  ⟨fun _ _ _ => rfl, fun _ _ => rfl⟩

theorem halt_writesAt (n : Nat) : WritesAt none fun t => (t.advance n).halt :=
  ⟨fun _ _ _ => rfl, fun _ _ => rfl⟩

theorem branch_writesAt (taken : Bool) (off : Byte) (n : Nat) : WritesAt none (branch taken off n) :=
  ⟨fun _ _ _ => rfl, fun _ _ => rfl⟩

/-! ## The shapes of the instructions -/

theorem move_readsThenWrites (p : Place) (src : Source) (n : Nat) (s : State) :
    ReadsThenWrites p.address? (move p src n) s :=
  (readSource_reads src s).andThen (f := fun v => retire p v v n) ((retire_writesAt p _ _ n).readsThenWrites _)

theorem moveFlagPointer_readsThenWrites (p : Place) (ptr : Byte) (src : Source) (n : Nat) (s : State) :
    ReadsThenWrites p.address? (moveFlagPointer p ptr src n) s :=
  (readSource_reads src s).andThen (f := fun v => retire p v ptr n) ((retire_writesAt p _ _ n).readsThenWrites _)

theorem unary_readsThenWrites (f : Byte → Byte) (p : Place) (n : Nat) (s : State) :
    ReadsThenWrites p.address? (unary f p n) s :=
  (readPlace_reads p s).andThen (f := fun v => retire p (f v) (f v) n) ((retire_writesAt p _ _ n).readsThenWrites _)

theorem binary_readsThenWrites (f : Byte → Byte → Byte) (p : Place) (src : Source) (n : Nat) (s : State) :
    ReadsThenWrites p.address? (binary f p src n) s :=
  (readPlace_reads p s).andThen
    (f := fun x t => retire p (f x (readSource src t).1) (f x (readSource src t).1) n (readSource src t).2)
    ((readSource_reads src _).andThen (f := fun y => retire p (f _ y) (f _ y) n)
      ((retire_writesAt p _ _ n).readsThenWrites _))

theorem send_readsThenWrites (event : Byte → Event) (src : Source) (n : Nat) (s : State) :
    ReadsThenWrites none (send event src n) s :=
  (readSource_reads src s).andThen (f := fun v t => (t.emit (event v)).advance n)
    ((emit_writesAt _ n).readsThenWrites _)

theorem display_readsThenWrites (src : Source) (n : Nat) (s : State) : ReadsThenWrites none (display src n) s :=
  (readSource_reads src s).andThen (f := fun v t => ((t.setDisp v).emit (.disp v)).advance n)
    ((setDisp_writesAt _ n).readsThenWrites _)

/-! ## Each instruction by its shape -/

/-- The instruction is the function `f` at every point of the input, and `f` reads and then writes at its destination. -/
def ExecReadsThenWrites (i : Instr) (s : State) : Prop :=
  ∃ f, ReadsThenWrites (i.storesTo s) f s ∧ ∀ n, exec i (s.atInput n) = .next (f (s.atInput n))

theorem exec_readsThenWrites (i : Instr) (s : State) : ExecReadsThenWrites i s := by
  cases i with
  | movRI d b => exact ⟨_, move_readsThenWrites (.reg d) (.imm b) .., fun _ => rfl⟩
  | movAR a r => exact ⟨_, move_readsThenWrites (direct a s) (.place (.reg r)) .., fun _ => rfl⟩
  | movRA d a => exact ⟨_, move_readsThenWrites (.reg d) (.place (direct a s)) .., fun _ => rfl⟩
  | movRR d r => exact ⟨_, move_readsThenWrites (.reg d) (.place (.reg r)) .., fun _ => rfl⟩
  | inR d => exact ⟨_, move_readsThenWrites (.reg d) (.place (.mem inputAddr)) .., fun _ => rfl⟩
  | mfiRR d p => exact ⟨_, move_readsThenWrites (.reg d) (.place (viaReg p s)) .., fun _ => rfl⟩
  | mfiAR a p => exact ⟨_, move_readsThenWrites (direct a s) (.place (viaReg p s)) .., fun _ => rfl⟩
  | mfiRA d a =>
    exact ⟨_, (viaMem_reads a s).andThen (f := fun p => move (.reg d) (.place p) 3)
      (move_readsThenWrites (.reg d) (.place (viaMem a s).1) ..), fun _ => rfl⟩
  | mfiAA b a =>
    exact ⟨_, (viaMem_reads a s).andThen (f := fun p => move (direct b s) (.place p) 3)
      (move_readsThenWrites (direct b s) (.place (viaMem a s).1) ..), fun _ => rfl⟩
  | milAR a r =>
    exact ⟨_, (viaMem_reads a s).andThen (f := fun p => move p (.place (.reg r)) 3)
      (move_readsThenWrites (viaMem a s).1 (.place (.reg r)) ..), fun _ => rfl⟩
  | milRI p b => exact ⟨_, moveFlagPointer_readsThenWrites (viaReg p s) (s.getReg p) (.imm b) .., fun _ => rfl⟩
  | milRR p r =>
    exact ⟨_, moveFlagPointer_readsThenWrites (viaReg p s) (s.getReg p) (.place (.reg r)) .., fun _ => rfl⟩
  | milRA p a =>
    exact ⟨_, moveFlagPointer_readsThenWrites (viaReg p s) (s.getReg p) (.place (direct a s)) .., fun _ => rfl⟩
  | sblR r | sbrR r | rblR r | rbrR r | notR r | incR r | decR r =>
    exact ⟨_, unary_readsThenWrites _ (.reg r) .., fun _ => rfl⟩
  | sblA a | sbrA a | rblA a | rbrA a | notA a | incA a | decA a =>
    exact ⟨_, unary_readsThenWrites _ (direct a s) .., fun _ => rfl⟩
  | andRI d b | orRI d b | xorRI d b | addRI d b | subRI d b =>
    exact ⟨_, binary_readsThenWrites _ (.reg d) (.imm b) .., fun _ => rfl⟩
  | andAR a r | orAR a r | xorAR a r | addAR a r | subAR a r =>
    exact ⟨_, binary_readsThenWrites _ (direct a s) (.place (.reg r)) .., fun _ => rfl⟩
  | andRA d a | orRA d a | xorRA d a | addRA d a | subRA d a =>
    exact ⟨_, binary_readsThenWrites _ (.reg d) (.place (direct a s)) .., fun _ => rfl⟩
  | andRR d r | orRR d r | xorRR d r | addRR d r | subRR d r =>
    exact ⟨_, binary_readsThenWrites _ (.reg d) (.place (.reg r)) .., fun _ => rfl⟩
  | outII p b => exact ⟨_, send_readsThenWrites (.out p) (.imm b) .., fun _ => rfl⟩
  | outIR p r => exact ⟨_, send_readsThenWrites (.out p) (.place (.reg r)) .., fun _ => rfl⟩
  | outIA p a => exact ⟨_, send_readsThenWrites (.out p) (.place (direct a s)) .., fun _ => rfl⟩
  | clsI b => exact ⟨_, send_readsThenWrites .clear (.imm b) .., fun _ => rfl⟩
  | disI b => exact ⟨_, display_readsThenWrites (.imm b) .., fun _ => rfl⟩
  | disR r => exact ⟨_, display_readsThenWrites (.place (.reg r)) .., fun _ => rfl⟩
  | disA a => exact ⟨_, display_readsThenWrites (.place (direct a s)) .., fun _ => rfl⟩
  | shw => exact ⟨_, (emit_writesAt (.show s.displayBuffer) 1).readsThenWrites s, fun _ => rfl⟩
  | brk => exact ⟨_, (halt_writesAt 1).readsThenWrites s, fun _ => rfl⟩
  | jmpI b => exact ⟨_, (branch_writesAt true b 2).readsThenWrites s, fun _ => rfl⟩
  | jmpR r => exact ⟨_, (branch_writesAt true (s.getReg r) 2).readsThenWrites s, fun _ => rfl⟩
  | jifII c b => exact ⟨_, (branch_writesAt (c = 1 && s.zf) b 3).readsThenWrites s, fun _ => rfl⟩
  | jifIR c r => exact ⟨_, (branch_writesAt (c = 1 && s.zf) (s.getReg r) 3).readsThenWrites s, fun _ => rfl⟩
  | jniII c b => exact ⟨_, (branch_writesAt (c = 1 && !s.zf) b 3).readsThenWrites s, fun _ => rfl⟩
  | jniIR c r => exact ⟨_, (branch_writesAt (c = 1 && !s.zf) (s.getReg r) 3).readsThenWrites s, fun _ => rfl⟩

/-- The draws and the write behind the state an instruction answers. -/
theorem writesAt_of_exec {i : Instr} {s t : State} (h : exec i s = .next t) :
    ∃ g k, WritesAt (i.storesTo s) g ∧ t = g (s.draw k) ∧
      (k = 0 → ∀ n, exec i (s.atInput n) = .next (g (s.atInput n))) := by
  obtain ⟨f, ⟨g, k, hg, hf, hsame⟩, hexec⟩ := exec_readsThenWrites i s
  have ht : t = f s := Host.Outcome.next.inj (h.symm.trans (hexec s.inputReads))
  exact ⟨g, k, hg, ht.trans hf, fun hk n => (hexec n).trans (congrArg _ (hsame hk n))⟩

/-! ## What an instruction stores, and what it lets in -/

/-- Every destination operand in memory gives an effective address of the state it starts from (`20_memory.md` R31). -/
theorem storesTo_cases (i : Instr) (s : State) : i.storesTo s = none ∨ ∃ off, i.storesTo s = some (s.ea off) := by
  cases i with
  | movAR a | andAR a | orAR a | xorAR a | addAR a | subAR a | mfiAR a | mfiAA a => exact .inr ⟨a, rfl⟩
  | sblA a | sbrA a | rblA a | rbrA a | notA a | incA a | decA a => exact .inr ⟨a, rfl⟩
  | milRI p | milRR p | milRA p => exact .inr ⟨s.getReg p, rfl⟩
  | milAR a => exact .inr ⟨_, viaMem_address a s⟩
  | _ => exact .inl rfl

theorem storesTo_page {i : Instr} {s : State} {a : Addr} (h : i.storesTo s = some a) : a.extractLsb' 8 4 = s.page := by
  rcases storesTo_cases i s with hnone | ⟨off, hoff⟩
  · cases hnone.symm.trans h
  · cases hoff.symm.trans h
    exact ea_page s off

/-- Settles O31: draws leave memory alone, and the write is at the address the destination operand gives. -/
theorem storesStayInTheActivePage : Obligations.StoresStayInTheActivePage := by
  intro i s t h
  obtain ⟨g, k, hg, rfl, -⟩ := writesAt_of_exec h
  have hframe : ∀ b, i.storesTo s ≠ some b ∨ b = 0x080 → (g (s.draw k)).byteAt b = s.byteAt b := hg.byteAt (s.draw k)
  constructor
  · intro a ha
    refine ⟨storesTo_page ha, fun b hb => hframe b (hb.imp_left fun hne hb => hne ?_)⟩
    exact Option.some.inj (hb.symm.trans ha)
  · intro hnone b
    exact hframe b (.inl (hnone ▸ nofun))

/-- Settles O33: the write neither makes a draw nor sees one, so that an instruction whose reads make none is that write
at every point of the input. -/
theorem onlyReadsOf0x080LetInputIn : Obligations.OnlyReadsOf0x080LetInputIn := by
  intro i s t h hdraws n
  obtain ⟨g, k, hg, rfl, hsame⟩ := writesAt_of_exec h
  have hk : k = 0 := Nat.add_eq_left.mp ((hg.inputReads (s.draw k)).symm.trans hdraws)
  subst hk
  exact (hsame rfl n).trans (congrArg _ (hg.atInput s n))

end Sys2Proof.Machine
end

section
/-!
PROOFS. The opcode map, the decoder, the encoder and the assembler say one thing (`30_encoding.md` R50 to R60): bytes
decode to an instruction exactly when its statement assembles to them.
-/
namespace Sys2Proof
open Sys2Proof.Machine

/-! ## Operands by type (R54, R55, R59) -/

/-- The operands of a type that have an operand byte. -/
inductive OperandType.Admits : OperandType → AsmOperand → Prop where
  | reg (r : RegName) : Admits .REG (.reg r.val)
  | imm (v : Byte) : Admits .IMM (.imm v.toNat)
  | addr (a : Byte) : Admits .ADDR (.addr a.toNat)

theorem OperandType.admits_iff {t : OperandType} {a : AsmOperand} :
    t.Admits a ↔ a.type? = some t ∧ a.inRange = true := by
  constructor
  · rintro (r | v | v)
    · exact ⟨rfl, decide_eq_true r.isLt⟩
    · exact ⟨rfl, decide_eq_true v.isLt⟩
    · exact ⟨rfl, decide_eq_true v.isLt⟩
  · rintro ⟨htype, hrange⟩
    cases a with
    | reg n => cases htype; exact .reg ⟨n, of_decide_eq_true hrange⟩
    | imm v => cases htype; exact .imm ⟨v, of_decide_eq_true hrange⟩
    | addr v => cases htype; exact .addr ⟨v, of_decide_eq_true hrange⟩
    | label name => cases htype

theorem OperandType.forall₂_admits_iff {ts : List OperandType} {operands : List AsmOperand} :
    List.Forall₂ OperandType.Admits ts operands ↔
      operands.mapM AsmOperand.type? = some ts ∧ operands.all AsmOperand.inRange = true := by
  induction operands generalizing ts with
  | nil => cases ts <;> simp
  | cons a operands ih =>
    cases ts with
    | nil => simp [Option.bind_eq_some_iff]
    | cons t ts =>
      rw [List.forall₂_cons, OperandType.admits_iff, ih]
      simp only [List.mapM_cons, Option.pure_def, Option.bind_eq_bind, Option.bind_eq_some_iff, Option.some.injEq,
        List.cons.injEq, exists_eq_right_right, List.all_cons, Bool.and_eq_true]
      tauto

/-! ## Statements by opcode (R56, R60) -/

theorem AsmStatement.wellFormed_iff {st : AsmStatement} :
    st.wellFormed = true ↔
      ∃ ts op, List.Forall₂ OperandType.Admits ts st.operands ∧ opcodeOf st.mnemonic ts = some op := by
  simp only [OperandType.forall₂_admits_iff, AsmStatement.wellFormed, AsmStatement.hasForm, Bool.and_eq_true]
  cases st.operands.mapM AsmOperand.type? <;> simp [Option.isSome_iff_exists, and_comm]

theorem assemble_eq_some_iff {st : AsmStatement} {bytes : List Byte} :
    assemble st = some bytes ↔
      ∃ ts op, List.Forall₂ OperandType.Admits ts st.operands ∧ opcodeOf st.mnemonic ts = some op ∧
        bytes = op :: st.operands.map AsmOperand.byte := by
  constructor
  · intro h
    rw [assemble] at h
    split at h
    next hwf =>
      obtain ⟨ts, op, hadmits, hop⟩ := AsmStatement.wellFormed_iff.mp hwf
      rw [(OperandType.forall₂_admits_iff.mp hadmits).1] at h
      simp only [hop, Option.map_some, Option.some.injEq] at h
      exact ⟨ts, op, hadmits, hop, h.symm⟩
    next => cases h
  · rintro ⟨ts, op, hadmits, hop, rfl⟩
    have hwf : st.wellFormed = true := AsmStatement.wellFormed_iff.mpr ⟨ts, op, hadmits, hop⟩
    simp [assemble, hwf, (OperandType.forall₂_admits_iff.mp hadmits).1, hop]

/-! ## Instructions by format (R52, R53) -/

/-- The instruction a format builds from operands as a statement writes them. -/
inductive Layout.Builds : Layout → List AsmOperand → Instr → Prop where
  | N (i : Instr) : Builds (.N i) [] i
  | R (mk) (r : RegName) : Builds (.R mk) [.reg r.val] (mk r)
  | I (mk) (v : Byte) : Builds (.I mk) [.imm v.toNat] (mk v)
  | A (mk) (a : Byte) : Builds (.A mk) [.addr a.toNat] (mk a)
  | RI (mk) (r : RegName) (v : Byte) : Builds (.RI mk) [.reg r.val, .imm v.toNat] (mk r v)
  | AR (mk) (a : Byte) (r : RegName) : Builds (.AR mk) [.addr a.toNat, .reg r.val] (mk a r)
  | RA (mk) (r : RegName) (a : Byte) : Builds (.RA mk) [.reg r.val, .addr a.toNat] (mk r a)
  | RR (mk) (r q : RegName) : Builds (.RR mk) [.reg r.val, .reg q.val] (mk r q)
  | II (mk) (v w : Byte) : Builds (.II mk) [.imm v.toNat, .imm w.toNat] (mk v w)
  | IR (mk) (v : Byte) (r : RegName) : Builds (.IR mk) [.imm v.toNat, .reg r.val] (mk v r)
  | IA (mk) (v a : Byte) : Builds (.IA mk) [.imm v.toNat, .addr a.toNat] (mk v a)
  | AA (mk) (a b : Byte) : Builds (.AA mk) [.addr a.toNat, .addr b.toNat] (mk a b)

theorem Layout.Builds.admits {l : Layout} {operands : List AsmOperand} {i : Instr} (h : l.Builds operands i) :
    List.Forall₂ OperandType.Admits l.operandTypes operands := by
  cases h <;> repeat' constructor

/-- A format builds an instruction from every row of operands of its types. -/
theorem Layout.exists_builds : ∀ {l : Layout} {operands : List AsmOperand},
    List.Forall₂ OperandType.Admits l.operandTypes operands → ∃ i, l.Builds operands i
  | .N i, _, .nil => ⟨_, .N i⟩
  | .R mk, _, .cons (.reg r) .nil => ⟨_, .R mk r⟩
  | .I mk, _, .cons (.imm v) .nil => ⟨_, .I mk v⟩
  | .A mk, _, .cons (.addr a) .nil => ⟨_, .A mk a⟩
  | .RI mk, _, .cons (.reg r) (.cons (.imm v) .nil) => ⟨_, .RI mk r v⟩
  | .AR mk, _, .cons (.addr a) (.cons (.reg r) .nil) => ⟨_, .AR mk a r⟩
  | .RA mk, _, .cons (.reg r) (.cons (.addr a) .nil) => ⟨_, .RA mk r a⟩
  | .RR mk, _, .cons (.reg r) (.cons (.reg q) .nil) => ⟨_, .RR mk r q⟩
  | .II mk, _, .cons (.imm v) (.cons (.imm w) .nil) => ⟨_, .II mk v w⟩
  | .IR mk, _, .cons (.imm v) (.cons (.reg r) .nil) => ⟨_, .IR mk v r⟩
  | .IA mk, _, .cons (.imm v) (.cons (.addr a) .nil) => ⟨_, .IA mk v a⟩
  | .AA mk, _, .cons (.addr a) (.cons (.addr b) .nil) => ⟨_, .AA mk a b⟩

theorem Layout.operandTypes_length_le (l : Layout) : l.operandTypes.length ≤ 2 := by
  cases l <;> simp [Layout.operandTypes]

/-! ## The decoder inverted (R50, R52, R54) -/

@[simp] theorem AsmOperand.byte_reg (r : RegName) : (AsmOperand.reg r.val).byte = regByte r := rfl

@[simp] theorem AsmOperand.byte_imm (v : Byte) : (AsmOperand.imm v.toNat).byte = v := Laws.Assembles.byte_eq v

@[simp] theorem AsmOperand.byte_addr (a : Byte) : (AsmOperand.addr a.toNat).byte = a := Laws.Assembles.byte_eq a

/-- A REG byte that a format takes names a register. -/
theorem regOperand_map_ok {α : Type} {op b : Byte} {k : Slot} {g : RegName → α} {x : α}
    (h : (regOperand op k b).map g = .ok x) : ∃ r, b = regByte r ∧ g r = x := by
  rcases regOperand_cases op k b with ⟨r, hb, hr⟩ | ⟨-, hr⟩
  · rw [hr] at h
    exact ⟨r, hb, Except.ok.inj h⟩
  · rw [hr] at h
    cases h

/-- The operand bytes a format takes are those of operands it builds the instruction from. -/
theorem builds_of_decodeOperands {op : Byte} {l : Layout} {bytes rest : List Byte} {i : Instr}
    (h : decodeOperands op l bytes = .ok (i, rest)) :
    ∃ operands, l.Builds operands i ∧ bytes = operands.map AsmOperand.byte ++ rest := by
  revert h
  fun_cases decodeOperands op l bytes with
  -- N, I, A, II, IA, AA: every operand byte stands for itself.
  | case1 | case3 | case4 | case10 | case12 | case13 =>
    rintro ⟨⟩
    exact ⟨_, by constructor, by simp⟩
  -- R, RI, AR, RA, IR: one of the operand bytes names a register.
  | case2 | case5 | case6 | case7 | case11 =>
    intro h
    obtain ⟨r, rfl, ⟨⟩⟩ := regOperand_map_ok h
    exact ⟨_, by constructor, by simp⟩
  -- RR: both do.
  | case8 mk b c tail d hfirst =>
    intro h
    obtain ⟨q, rfl, ⟨⟩⟩ := regOperand_map_ok h
    obtain ⟨r, rfl, rfl⟩ := regOperand_map_ok (g := id) (congrArg (Except.map id) hfirst)
    exact ⟨_, .RR mk r q, rfl⟩
  -- Bytes that are rejected.
  | case9 | case14 => exact nofun

theorem decodeOperands_of_builds (op : Byte) {l : Layout} {operands : List AsmOperand} {i : Instr}
    (h : l.Builds operands i) (rest : List Byte) :
    decodeOperands op l (operands.map AsmOperand.byte ++ rest) = .ok (i, rest) := by
  cases h <;> simp [decodeOperands, regByte, regOperand_number, Except.map]

/-- Bytes decode to an instruction exactly when they are an opcode byte, the bytes of operands that its format builds
the instruction from, and the rest. -/
theorem decode_eq_ok_iff {bytes rest : List Byte} {i : Instr} :
    decode bytes = .ok (i, rest) ↔
      ∃ op l operands, layoutOf op = some l ∧ l.Builds operands i ∧
        bytes = op :: (operands.map AsmOperand.byte ++ rest) := by
  constructor
  · intro h
    cases bytes with
    | nil => cases h
    | cons op tail =>
      rw [decode] at h
      split at h
      next l hl =>
        obtain ⟨operands, hbuilds, rfl⟩ := builds_of_decodeOperands h
        exact ⟨op, l, operands, hl, hbuilds, rfl⟩
      next => cases h
  · rintro ⟨op, l, operands, hl, hbuilds, rfl⟩
    simp only [decode, hl, decodeOperands_of_builds op hbuilds]

/-- What follows an instruction plays no part in its decoding. -/
theorem decode_append {bytes rest : List Byte} {i : Instr} (h : decode bytes = .ok (i, rest)) (more : List Byte) :
    decode (bytes ++ more) = .ok (i, rest ++ more) := by
  obtain ⟨op, l, operands, hl, hbuilds, rfl⟩ := decode_eq_ok_iff.mp h
  exact decode_eq_ok_iff.mpr ⟨op, l, operands, hl, hbuilds, by simp⟩

/-! ## The opcode map read in both directions (R56, R60) -/

/-- The opcode that a mnemonic and operand types select has a format of these types, which builds only instructions that
the mnemonic writes. -/
theorem layout_of_opcodeOf {m : Mnemonic} {ts : List OperandType} {op : Byte} (h : opcodeOf m ts = some op) :
    ∃ l, layoutOf op = some l ∧ l.operandTypes = ts ∧
      ∀ operands i, l.Builds operands i → i.statement = ⟨m, operands⟩ := by
  unfold opcodeOf at h
  split at h
  case h_63 => cases h
  all_goals
    cases h
    exact ⟨_, rfl, rfl, fun operands i hbuilds => by cases hbuilds; rfl⟩

/-- Every row of the opcode map is selected by a mnemonic with the operand types of its format. -/
theorem opcodeOf_of_layout {op : Byte} {l : Layout} (h : layoutOf op = some l) :
    ∃ m, opcodeOf m l.operandTypes = some op := by
  have hrows : ∀ row ∈ opcodeMap, ∃ name ∈ mnemonicNames, opcodeOf name.2 row.2.operandTypes = some row.1 := by decide
  obtain ⟨before, after, hmap, -⟩ := List.lookup_eq_some_iff.mp h
  obtain ⟨name, -, hop⟩ := hrows (op, l) (hmap ▸ List.mem_append_right before List.mem_cons_self)
  exact ⟨name.2, hop⟩

/-! ## Decoding and assembling -/

/-- What a statement assembles to decodes to an instruction that the statement writes. -/
theorem decode_of_assemble {st : AsmStatement} {bytes : List Byte} (h : assemble st = some bytes) :
    ∃ i : Instr, i.statement = st ∧ decode bytes = .ok (i, []) := by
  obtain ⟨ts, op, hadmits, hop, rfl⟩ := assemble_eq_some_iff.mp h
  obtain ⟨l, hl, rfl, hstatement⟩ := layout_of_opcodeOf hop
  obtain ⟨i, hbuilds⟩ := Layout.exists_builds hadmits
  exact ⟨i, hstatement _ i hbuilds, decode_eq_ok_iff.mpr ⟨op, l, _, hl, hbuilds, by simp⟩⟩

/-- What decodes to an instruction is what its statement assembles to, and the rest. -/
theorem assemble_of_decode {bytes rest : List Byte} {i : Instr} (h : decode bytes = .ok (i, rest)) :
    ∃ word, assemble i.statement = some word ∧ bytes = word ++ rest := by
  obtain ⟨op, l, operands, hl, hbuilds, rfl⟩ := decode_eq_ok_iff.mp h
  obtain ⟨m, hop⟩ := opcodeOf_of_layout hl
  obtain ⟨l', hl', -, hstatement⟩ := layout_of_opcodeOf hop
  cases hl.symm.trans hl'
  rw [hstatement operands i hbuilds]
  exact ⟨_, assemble_eq_some_iff.mpr ⟨_, op, hbuilds.admits, hop, rfl⟩, rfl⟩

/-- The encoder and the assembler agree. -/
theorem assemble_statement (i : Instr) : assemble i.statement = some (encode i) := by
  obtain ⟨word, hassemble, hbytes⟩ := assemble_of_decode (decodesBack i).2
  rw [hassemble, hbytes, List.append_nil]

/-! ## One encoding for each instruction (R50, R52, R53) -/

/-- Settles O1: the encoding decodes back, and what follows it plays no part. -/
theorem decodeInvertsEncode : Obligations.DecodeInvertsEncode := fun i rest =>
  decode_append (decodesBack i).2 rest

/-- Settles O2: both the bytes and the encoding are what the instruction's statement assembles to. -/
theorem decodedBytesAreTheEncoding : Obligations.DecodedBytesAreTheEncoding := by
  intro bytes i rest h
  obtain ⟨word, hassemble, hbytes⟩ := assemble_of_decode h
  have hword : word = encode i := Option.some.inj (hassemble.symm.trans (assemble_statement i))
  rw [hbytes, hword]

/-! ## The unassigned opcode bytes (R58) -/

/-- The opcode bytes without a row are those that R58 lists. -/
theorem layoutOf_eq_none_iff (op : Byte) :
    layoutOf op = none ↔
      let n := op.toNat
      n = 0 ∨ (0x08 ≤ n ∧ n ≤ 0x0E) ∨ n = 0x16 ∨ n = 0x17 ∨ n = 0x2E ∨ n = 0x2F ∨ (0x3C ≤ n ∧ n ≤ 0x3F) ∨
        (0x46 ≤ n ∧ n ≤ 0x4F) ∨ 0x58 ≤ n := by
  have hbyte : op.toNat < 256 := op.isLt
  simp only [layoutOf, List.lookup_eq_none_iff, opcodeMap, ioRows, transferRows, shiftRows, logicalRows, arithmeticRows,
    controlRows, List.forall_mem_append, List.forall_mem_cons, bne_iff_ne, ne_eq, BitVec.toNat_eq, BitVec.reduceToNat,
    List.not_mem_nil, false_implies, implies_true, and_true]
  omega

/-- Only an opcode byte without a row is rejected as an opcode. -/
theorem decode_illegalOpcode_iff (op : Byte) (rest : List Byte) :
    decode (op :: rest) = .error (.illegalOpcode op) ↔ layoutOf op = none := by
  rw [decode]
  split
  next l hl =>
    have hnot : decodeOperands op l rest ≠ .error (.illegalOpcode op) := by
      intro h
      rcases decodeOperands_error h with h | ⟨k, b, h, -⟩ <;> cases h
    simp [hl, hnot]
  next hnone => simp [hnone]

/-- Settles O3: only a byte without a row is rejected as an opcode, and R58 lists the bytes without a row. -/
theorem unassignedOpcodesAreRejectedByName : Obligations.UnassignedOpcodesAreRejectedByName := fun op rest =>
  (decode_illegalOpcode_iff op rest).trans (layoutOf_eq_none_iff op)

/-! ## The assembler, the length and the sample words -/

/-- Settles O6: well-formed statements and words of instructions are the same, and a word decodes in one way only. -/
theorem assemblerIsExact : Obligations.AssemblerIsExact := by
  refine ⟨fun st => ?_, fun st st' bytes h h' => ?_, fun st bytes => decode_of_assemble⟩
  · simp [AsmStatement.wellFormed_iff, assemble_eq_some_iff]
  · obtain ⟨i, rfl, hi⟩ := decode_of_assemble h
    obtain ⟨j, rfl, hj⟩ := decode_of_assemble h'
    cases hi.symm.trans hj
    rfl

/-- Settles O4: the encoding is the statement assembled, one byte per operand after the opcode byte. -/
theorem lengthIsOnePlusOperands : Obligations.LengthIsOnePlusOperands := by
  intro i
  obtain ⟨ts, op, hadmits, hop, hbytes⟩ := assemble_eq_some_iff.mp (assemble_statement i)
  obtain ⟨l, -, rfl, -⟩ := layout_of_opcodeOf hop
  have hlength : i.length = 1 + i.statement.operands.length := by
    rw [Instr.length, hbytes, List.length_cons, List.length_map, Nat.add_comm]
  have htwo : i.statement.operands.length ≤ 2 := hadmits.length_eq ▸ l.operandTypes_length_le
  refine ⟨hlength, by omega, fun op' bytes h => ?_⟩
  rw [(decodesBack i).1 op' bytes h, (List.cons.inj (h.symm.trans hbytes)).2, List.length_map]

/-- Settles O5: each row is the encoding of its instruction. -/
theorem sampleWordsDecode : Obligations.SampleWordsDecode :=
  ⟨decodeInvertsEncode (.movRI 2 0x2A) [], decodeInvertsEncode (.milRR 0 2) [], decodeInvertsEncode (.mfiAA 0x11 0xC0) [],
    decodeInvertsEncode (.outIR 0x03 2) [], decodeInvertsEncode (.rbrR 4) [], decodeInvertsEncode (.andAR 0xA0 2) [],
    decodeInvertsEncode (.subRA 3 0xA0) [], decodeInvertsEncode (.jifIR 0x01 2) []⟩

end Sys2Proof
end

section
/-!
PROOFS. MOV, MIL and MFI (`40_data_transfer.md`): each form reads its source, through a pointer or not, and moves the
byte to its destination; the forms differ in where the two come from.
-/
namespace Sys2Proof.Machine

/-! ## Reading the source (`20_memory.md` R32, R35)

`readSource_mem` says what a read after draws gives; these are the reads an instruction begins with. -/

theorem readSource_imm (v : Byte) (s : State) : readSource (.imm v) s = (v, s.draw 0) := rfl

theorem readSource_reg (r : RegName) (s : State) : readSource (.place (.reg r)) s = (s.getReg r, s.draw 0) := rfl

theorem readSource_direct (a : Byte) (s : State) :
    readSource (.place (direct a s)) s = (s.sees (s.ea a) 0, s.draw (deviceReads (s.ea a))) :=
  s.memRead_eq (s.ea a)

theorem readSource_viaReg (p : RegName) (s : State) :
    readSource (.place (viaReg p s)) s = (s.sees (s.ea (s.getReg p)) 0, s.draw (deviceReads (s.ea (s.getReg p)))) :=
  s.memRead_eq (s.ea (s.getReg p))

/-- The byte that a pointer in memory names is read after the pointer, in the same page. -/
theorem readSource_viaMem (a : Byte) (s : State) :
    readSource (.place (viaMem a s).1) (viaMem a s).2 =
      (s.sees (s.ea (s.sees (s.ea a) 0)) (deviceReads (s.ea a)),
        s.draw (deviceReads (s.ea a) + deviceReads (s.ea (s.sees (s.ea a) 0)))) := by
  rw [viaMem_eq]
  exact readSource_mem s _ _

/-- Reading the pointer leaves the registers alone. -/
theorem readSource_reg_after_viaMem (a : Byte) (r : RegName) (s : State) :
    readSource (.place (.reg r)) (viaMem a s).2 = (s.getReg r, s.draw (deviceReads (s.ea a))) := by
  rw [viaMem_eq]
  rfl

/-! ## Moving to the destination (`00_scope.md` R7)

An instruction that is a move from `u`, a state whose read of the source gives `v` and leaves `s` after `k` draws. -/

section Moves

variable {i : Instr} {s u : State} {src : Source} {v : Byte} {n k : Nat}

theorem exec_move_reg {d : RegName} (hexec : exec i s = .next (move (.reg d) src n u))
    (hread : readSource src u = (v, s.draw k)) : ∃ t, exec i s = .next t ∧ AfterRegister s t d v n k := by
  refine ⟨_, hexec, ?_⟩
  rw [move, hread]
  exact retire_reg s d v n k

theorem exec_move_mem {a : Addr} (hs : s.mem.wf) (hexec : exec i s = .next (move (.mem a) src n u))
    (hread : readSource src u = (v, s.draw k)) : ∃ t, exec i s = .next t ∧ AfterStore s t a v v n k := by
  refine ⟨_, hexec, ?_⟩
  rw [move, hread]
  exact retire_mem hs a v v n k

/-- As `exec_move_mem`, with ZF from the pointer (`90_conflicts.md` C2). -/
theorem exec_moveFlagPointer_mem {a : Addr} {ptr : Byte} (hs : s.mem.wf)
    (hexec : exec i s = .next (moveFlagPointer (.mem a) ptr src n u)) (hread : readSource src u = (v, s.draw k)) :
    ∃ t, exec i s = .next t ∧ AfterStore s t a v ptr n k := by
  refine ⟨_, hexec, ?_⟩
  rw [moveFlagPointer, hread]
  exact retire_mem hs a v ptr n k

end Moves

/-! ## MOV (R71 to R74) -/

theorem exec_movRR (s : State) (d r : RegName) :
    ∃ t, exec (.movRR d r) s = .next t ∧ AfterRegister s t d (s.getReg r) 3 0 :=
  exec_move_reg rfl (readSource_reg r s)

/-- Settles O35: each form is a move from an operand of the state it starts in. -/
theorem movMovesAndSetsZF : Obligations.MovMovesAndSetsZF :=
  ⟨decodesRB_of_layout (.inl rfl), decodesBR_of_layout (.inl rfl), decodesRB_of_layout (.inr rfl),
    decodesRR_of_layout rfl,
    fun s _ imm => exec_move_reg rfl (readSource_imm imm s),
    fun s _ r hs => exec_move_mem hs rfl (readSource_reg r s),
    fun s _ a => exec_move_reg rfl (readSource_direct a s),
    exec_movRR⟩

/-- Settles O34: the destination is given what it holds, and R7 its flag. -/
theorem movRegToItselfTestsForZero : Obligations.MovRegToItselfTestsForZero := by
  intro s r
  obtain ⟨t, hexec, ht⟩ := exec_movRR s r r
  refine ⟨t, hexec, fun q h7 => ?_, ?_⟩
  · by_cases hq : q = r
    · subst hq
      exact ht.destination h7
    · exact ht.others q hq h7
  · rw [ht.control]
    split
    next h => rw [h]
    next => rfl

/-! ## MIL (R75 to R78) -/

/-- Settles O36: the destination is the byte a pointer names, and only the pointer of the ADDR, REG form is read from
memory. -/
theorem milStoresThroughAPointer : Obligations.MilStoresThroughAPointer :=
  ⟨decodesRB_of_layout (.inl rfl), decodesRR_of_layout rfl, decodesRB_of_layout (.inr rfl),
    decodesBR_of_layout (.inl rfl),
    fun s _ imm hs => exec_moveFlagPointer_mem hs rfl (readSource_imm imm s),
    fun s _ r hs => exec_moveFlagPointer_mem hs rfl (readSource_reg r s),
    fun s _ a hs => exec_moveFlagPointer_mem hs rfl (readSource_direct a s),
    fun s a r hs => exec_move_mem hs rfl (readSource_reg_after_viaMem a r s)⟩

/-! ## MFI (R79 to R82) -/

/-- Settles O37: the source is the byte a pointer names, which is read after a pointer in memory. -/
theorem mfiLoadsThroughAPointer : Obligations.MfiLoadsThroughAPointer :=
  ⟨decodesRR_of_layout rfl, decodesRB_of_layout (.inr rfl), decodesBR_of_layout (.inl rfl),
    decodesBB_of_layout (.inr (.inr rfl)),
    fun s _ p => exec_move_reg rfl (readSource_viaReg p s),
    fun s _ a => exec_move_reg rfl (readSource_viaMem a s),
    fun s _ p hs => exec_move_mem hs rfl (readSource_viaReg p s),
    fun s _ a hs => exec_move_mem hs rfl (readSource_viaMem a s)⟩

end Sys2Proof.Machine
end

section
/-!
PROOFS. DIS, IN, OUT, BRK, SHW and CLS (`41_io_system.md`): the forms of DIS and OUT differ in where the value comes
from, IN is a move from the input controller, and SHW sends the bytes of the display buffer.
-/
namespace Sys2Proof.Machine

/-! ## Sending and displaying a value (R90 to R97, R100)

An instruction whose read of the source gives `v` and leaves `s` after `k` draws. -/

section Sends

variable {i : Instr} {s : State} {src : Source} {v : Byte} {n k : Nat}

theorem exec_send {event : Byte → Event} (hexec : exec i s = .next (send event src n s))
    (hread : readSource src s = (v, s.draw k)) :
    ∃ t, exec i s = .next t ∧ AfterEvent s t (event v) s.disp n k := by
  refine ⟨_, hexec, ?_⟩
  rw [send, hread]
  exact emit_after s (event v) n k

theorem exec_display (hexec : exec i s = .next (display src n s)) (hread : readSource src s = (v, s.draw k)) :
    ∃ t, exec i s = .next t ∧ AfterEvent s t (.disp v) v n k := by
  refine ⟨_, hexec, ?_⟩
  rw [display, hread]
  exact display_after s v n k

end Sends

/-- Settles O38: each form displays an operand of the state it starts in. -/
theorem disShowsAValue : Obligations.DisShowsAValue :=
  ⟨decodesB_of_layout (.inl rfl), decodesR_of_layout rfl, decodesB_of_layout (.inr rfl),
    fun s imm => exec_display rfl (readSource_imm imm s),
    fun s r => exec_display rfl (readSource_reg r s),
    fun s a => exec_display rfl (readSource_direct a s)⟩

/-- Settles O40: each form sends its second operand to the port that the first names. -/
theorem outSendsAValueToAPort : Obligations.OutSendsAValueToAPort :=
  ⟨decodesBB_of_layout (.inl rfl), decodesBR_of_layout (.inr rfl), decodesBB_of_layout (.inr (.inl rfl)),
    fun s _ v => exec_send rfl (readSource_imm v s),
    fun s _ r => exec_send rfl (readSource_reg r s),
    fun s _ a => exec_send rfl (readSource_direct a s)⟩

/-- Settles O43: CLS sends an immediate operand, as OUT does. -/
theorem clsClearsTheScreenOnly : Obligations.ClsClearsTheScreenOnly :=
  ⟨decodesB_of_layout (.inl rfl), fun s colour => exec_send rfl (readSource_imm colour s)⟩

/-! ## IN (R93) -/

/-- The input controller is read at its absolute address, which costs one draw (`20_memory.md` R35). -/
theorem readSource_inputAddr (s : State) :
    readSource (.place (.mem inputAddr)) s = (Config.input s.inputReads, s.draw 1) :=
  s.memRead_eq inputAddr

/-- Settles O39: IN is a move from the input controller, whose address is not formed with R7. -/
theorem inReadsTheInputController : Obligations.InReadsTheInputController :=
  ⟨decodesR_of_layout rfl, fun s _ => exec_move_reg rfl (readSource_inputAddr s)⟩

/-! ## BRK (R98) -/

/-- Settles O41: `advance` writes the pc and `halt` the run state, and BRK is one after the other. -/
theorem brkHalts : Obligations.BrkHalts :=
  ⟨decodesN_of_layout rfl, fun _ => rfl⟩

/-! ## SHW (R99) -/

/-- The buffer starts at absolute address 0, so that a byte's index is its address. -/
theorem State.displayBuffer_getElem (s : State) (i : Nat) (h : i < s.displayBuffer.length) :
    s.displayBuffer[i] = s.byteAt (BitVec.ofNat 12 i) := by
  have haddr : (BitVec.ofNat 12 i).toNat = i := by
    rw [displayBuffer_length] at h
    exact Nat.mod_eq_of_lt (by omega)
  simp only [State.displayBuffer, List.getElem_map, List.getElem_range, State.byteAt, haddr]

/-- Settles O42: the event holds the display buffer, whose bytes stand at absolute addresses. -/
theorem shwSendsTheDisplayBuffer : Obligations.ShwSendsTheDisplayBuffer :=
  ⟨decodesN_of_layout rfl, fun s =>
    ⟨_, s.displayBuffer, rfl, emit_after s (.show s.displayBuffer) 1 0, displayBuffer_length s,
      s.displayBuffer_getElem⟩⟩

end Sys2Proof.Machine
end

section
/-!
PROOFS. SBL, SBR, RBL and RBR (`42_shift_rotate.md`): each form reads a place, computes a byte and writes it back. The
results are stated as numbers, as the rules word them; a rotation is a sum because its two halves share no bit.
-/
namespace Sys2Proof.Machine

/-! ## Writing a result back to the place it is computed from (`00_scope.md` R7) -/

section Unary

variable {i : Instr} {f : Byte → Byte} {s : State} {v : Byte} {n : Nat}

theorem exec_unary_reg {d : RegName} (hexec : exec i s = .next (unary f (.reg d) n s)) (hf : f (s.getReg d) = v) :
    ∃ t, exec i s = .next t ∧ AfterRegister s t d v n 0 := by
  have hread : readPlace (.reg d) s = (s.getReg d, s.draw 0) := readSource_reg d s
  refine ⟨_, hexec, ?_⟩
  rw [unary, hread, hf]
  exact retire_reg s d v n 0

theorem exec_unary_mem {a : Addr} (hs : s.mem.wf) (hexec : exec i s = .next (unary f (.mem a) n s))
    (hf : f (s.sees a 0) = v) : ∃ t, exec i s = .next t ∧ AfterStore s t a v v n (deviceReads a) := by
  have hread : readPlace (.mem a) s = (s.sees a 0, s.draw (deviceReads a)) := s.memRead_eq a
  refine ⟨_, hexec, ?_⟩
  rw [unary, hread, hf]
  exact retire_mem hs a v v n (deviceReads a)

end Unary

/-! ## The results as numbers (`42_shift_rotate.md` R110) -/

theorem shl1_eq_ofNat (v : Byte) : shl1 v = BitVec.ofNat 8 (v.toNat * 2 % 256) := by
  refine BitVec.eq_of_toNat_eq ?_
  rw [shl1, BitVec.toNat_shiftLeft, Nat.shiftLeft_eq, BitVec.toNat_ofNat]
  omega

theorem shr1_eq_ofNat (v : Byte) : shr1 v = BitVec.ofNat 8 (v.toNat / 2) := by
  refine BitVec.eq_of_toNat_eq ?_
  have hbyte : v.toNat < 256 := v.isLt
  rw [shr1, BitVec.toNat_ushiftRight, Nat.shiftRight_eq_div_pow, BitVec.toNat_ofNat]
  omega

/-- A byte moved up by `k` bits and one moved down by the other `8 - k` have no bit in common, so that joining them is
adding them. -/
theorem shiftLeft_or_ushiftRight_eq_add (x y : Byte) {k j : Nat} (h : k + j = 8) :
    x <<< k ||| y >>> j = x <<< k + y >>> j := by
  refine (BitVec.add_eq_or_of_and_eq_zero _ _ (BitVec.eq_of_getLsbD_eq fun b _ => ?_)).symm
  rw [BitVec.getLsbD_and, BitVec.getLsbD_shiftLeft, BitVec.getLsbD_ushiftRight, BitVec.getLsbD_zero]
  by_cases hb : b < k
  · simp [hb]
  · simp [BitVec.getLsbD_of_ge y (j + b) (by omega)]

theorem rol1_eq_ofNat (v : Byte) : rol1 v = BitVec.ofNat 8 (v.toNat * 2 % 256 + v.toNat / 128) := by
  refine BitVec.eq_of_toNat_eq ?_
  rw [rol1, shiftLeft_or_ushiftRight_eq_add v v rfl, BitVec.toNat_add, BitVec.toNat_shiftLeft,
    BitVec.toNat_ushiftRight, Nat.shiftLeft_eq, Nat.shiftRight_eq_div_pow, BitVec.toNat_ofNat]

theorem ror1_eq_ofNat (v : Byte) : ror1 v = BitVec.ofNat 8 (v.toNat / 2 + v.toNat % 2 * 128) := by
  have hbit : (v &&& 1).toNat = v.toNat % 2 := Nat.and_one_is_mod v.toNat
  refine BitVec.eq_of_toNat_eq ?_
  rw [ror1, BitVec.or_comm, shiftLeft_or_ushiftRight_eq_add _ v rfl, BitVec.toNat_add, BitVec.toNat_shiftLeft,
    BitVec.toNat_ushiftRight, hbit, Nat.shiftLeft_eq, Nat.shiftRight_eq_div_pow, BitVec.toNat_ofNat]
  omega

/-! ## SBL and SBR (R111 to R114) -/

/-- Settles O44: both forms write the shifted byte back to where it was read. -/
theorem sblShiftsLeft : Obligations.SblShiftsLeft :=
  ⟨decodesR_of_layout rfl, decodesB_of_layout (.inr rfl),
    fun _ _ => exec_unary_reg rfl (shl1_eq_ofNat _),
    fun _ _ hs => exec_unary_mem hs rfl (shl1_eq_ofNat _)⟩

/-- Settles O45: as SBL, with the byte shifted right. -/
theorem sbrShiftsRight : Obligations.SbrShiftsRight :=
  ⟨decodesR_of_layout rfl, decodesB_of_layout (.inr rfl),
    fun _ _ => exec_unary_reg rfl (shr1_eq_ofNat _),
    fun _ _ hs => exec_unary_mem hs rfl (shr1_eq_ofNat _)⟩

/-! ## RBL and RBR (R115 to R118) -/

/-- Settles O46: both forms write the rotated byte back to where it was read. -/
theorem rblRotatesLeft : Obligations.RblRotatesLeft :=
  ⟨decodesR_of_layout rfl, decodesB_of_layout (.inr rfl),
    fun _ _ => exec_unary_reg rfl (rol1_eq_ofNat _),
    fun _ _ hs => exec_unary_mem hs rfl (rol1_eq_ofNat _)⟩

/-- Settles O47: as RBL, with the byte rotated right. -/
theorem rbrRotatesRight : Obligations.RbrRotatesRight :=
  ⟨decodesR_of_layout rfl, decodesB_of_layout (.inr rfl),
    fun _ _ => exec_unary_reg rfl (ror1_eq_ofNat _),
    fun _ _ hs => exec_unary_mem hs rfl (ror1_eq_ofNat _)⟩

end Sys2Proof.Machine
end

section
/-!
PROOFS. AND, OR, XOR and NOT (`43_logical.md`). The four forms of AND, OR and XOR differ in where the two operands come
from, and not in what is computed of them, so that the forms are proved once for any operation on two bytes.
-/
namespace Sys2Proof.Machine

/-! ## Combining a source into the place of the first operand (`43_logical.md` R120; `44_arithmetic.md` R140) -/

section Binary

variable {i : Instr} {f : Byte → Byte → Byte} {s : State} {src : Source} {v y : Byte} {n k : Nat}

theorem exec_binary_reg {d : RegName} (hexec : exec i s = .next (binary f (.reg d) src n s))
    (hread : readSource src s = (y, s.draw k)) (hf : f (s.getReg d) y = v) :
    ∃ t, exec i s = .next t ∧ AfterRegister s t d v n k := by
  have hfirst : readPlace (.reg d) s = (s.getReg d, s) := rfl
  refine ⟨_, hexec, ?_⟩
  rw [binary, hfirst, hread, hf]
  exact retire_reg s d v n k

/-- The first operand is read before the second, and its draws leave the registers alone. -/
theorem exec_binary_mem {a : Addr} {r : RegName} (hs : s.mem.wf)
    (hexec : exec i s = .next (binary f (.mem a) (.place (.reg r)) n s)) (hf : f (s.sees a 0) (s.getReg r) = v) :
    ∃ t, exec i s = .next t ∧ AfterStore s t a v v n (deviceReads a) := by
  have hfirst : readPlace (.mem a) s = (s.sees a 0, s.draw (deviceReads a)) := s.memRead_eq a
  have hsecond : readSource (.place (.reg r)) (s.draw (deviceReads a)) = (s.getReg r, s.draw (deviceReads a)) := rfl
  refine ⟨_, hexec, ?_⟩
  rw [binary, hfirst, hsecond, hf]
  exact retire_mem hs a v v n (deviceReads a)

end Binary

/-! ## The four forms of an operation on two bytes -/

/-- The forms REG, IMM and ADDR, REG and REG, ADDR and REG, REG of an instruction write `g` of the two operands into the
first and set ZF from it, 3 bytes further. -/
def CombinesIntoTheFirst (g : Byte → Byte → Byte) (ri : RegName → Byte → Instr) (ar : Byte → RegName → Instr)
    (ra : RegName → Byte → Instr) (rr : RegName → RegName → Instr) : Prop :=
  (∀ (s : State) (d : RegName) (imm : Byte), ∃ t, exec (ri d imm) s = .next t ∧
      AfterRegister s t d (g (s.getReg d) imm) 3 0) ∧
    (∀ (s : State) (a : Byte) (r : RegName), s.mem.wf →
      let v : Byte := g (s.sees (s.ea a) 0) (s.getReg r)
      ∃ t, exec (ar a r) s = .next t ∧ AfterStore s t (s.ea a) v v 3 (deviceReads (s.ea a))) ∧
    (∀ (s : State) (d : RegName) (a : Byte), ∃ t, exec (ra d a) s = .next t ∧
      AfterRegister s t d (g (s.getReg d) (s.sees (s.ea a) 0)) 3 (deviceReads (s.ea a))) ∧
    (∀ (s : State) (d r : RegName), ∃ t, exec (rr d r) s = .next t ∧
      AfterRegister s t d (g (s.getReg d) (s.getReg r)) 3 0)

/-- Where each form's meaning is `binary f` of its operands, and `f` computes `g`. -/
theorem combinesIntoTheFirst_of_binary {f g : Byte → Byte → Byte} {ri : RegName → Byte → Instr}
    {ar : Byte → RegName → Instr} {ra : RegName → Byte → Instr} {rr : RegName → RegName → Instr}
    (hf : ∀ x y, f x y = g x y)
    (hri : ∀ d imm s, exec (ri d imm) s = .next (binary f (.reg d) (.imm imm) 3 s))
    (har : ∀ a r s, exec (ar a r) s = .next (binary f (direct a s) (.place (.reg r)) 3 s))
    (hra : ∀ d a s, exec (ra d a) s = .next (binary f (.reg d) (.place (direct a s)) 3 s))
    (hrr : ∀ d r s, exec (rr d r) s = .next (binary f (.reg d) (.place (.reg r)) 3 s)) :
    CombinesIntoTheFirst g ri ar ra rr :=
  ⟨fun s d imm => exec_binary_reg (hri d imm s) (readSource_imm imm s) (hf _ _),
    fun s a r hs => exec_binary_mem hs (har a r s) (hf _ _),
    fun s d a => exec_binary_reg (hra d a s) (readSource_direct a s) (hf _ _),
    fun s d r => exec_binary_reg (hrr d r s) (readSource_reg r s) (hf _ _)⟩

/-! ## AND, OR and XOR (R121 to R132) -/

/-- Settles O48: the four forms are one operation, bit by bit AND, of the operands in the state it starts in. -/
theorem andCombinesIntoTheFirst : Obligations.AndCombinesIntoTheFirst :=
  ⟨decodesRB_of_layout (.inl rfl), decodesBR_of_layout (.inl rfl), decodesRB_of_layout (.inr rfl),
    decodesRR_of_layout rfl,
    combinesIntoTheFirst_of_binary (f := bitAnd) (g := (· &&& ·)) (fun _ _ => rfl) (fun _ _ _ => rfl)
      (fun _ _ _ => rfl) (fun _ _ _ => rfl) fun _ _ _ => rfl⟩

/-- Settles O49: as AND, with the operation OR. -/
theorem orCombinesIntoTheFirst : Obligations.OrCombinesIntoTheFirst :=
  ⟨decodesRB_of_layout (.inl rfl), decodesBR_of_layout (.inl rfl), decodesRB_of_layout (.inr rfl),
    decodesRR_of_layout rfl,
    combinesIntoTheFirst_of_binary (f := bitOr) (g := (· ||| ·)) (fun _ _ => rfl) (fun _ _ _ => rfl)
      (fun _ _ _ => rfl) (fun _ _ _ => rfl) fun _ _ _ => rfl⟩

/-- Settles O50: as AND, with the operation XOR. -/
theorem xorCombinesIntoTheFirst : Obligations.XorCombinesIntoTheFirst :=
  ⟨decodesRB_of_layout (.inl rfl), decodesBR_of_layout (.inl rfl), decodesRB_of_layout (.inr rfl),
    decodesRR_of_layout rfl,
    combinesIntoTheFirst_of_binary (f := bitXor) (g := (· ^^^ ·)) (fun _ _ => rfl) (fun _ _ _ => rfl)
      (fun _ _ _ => rfl) (fun _ _ _ => rfl) fun _ _ _ => rfl⟩

/-! ## NOT (R133, R134) -/

/-- Inverting every bit is XOR with a byte of ones. -/
theorem invert_eq_xor (v : Byte) : invert v = v ^^^ 0xFF :=
  BitVec.xor_allOnes.symm

/-- Settles O51: both forms write the inverted byte back to where it was read. -/
theorem notInverts : Obligations.NotInverts :=
  ⟨decodesR_of_layout rfl, decodesB_of_layout (.inr rfl),
    fun _ _ => exec_unary_reg rfl (invert_eq_xor _),
    fun _ _ hs => exec_unary_mem hs rfl (invert_eq_xor _)⟩

end Sys2Proof.Machine
end

section
/-!
PROOFS. ADD, SUB, INC and DEC (`44_arithmetic.md`). The results are stated as numbers modulo 256, as the rules word
them; the forms of ADD and SUB are those of AND, and the forms of INC and DEC are those of SBL. ZF is the flag of the
result, whatever the destination.
-/
namespace Sys2Proof.Machine

/-! ## The exact results, narrowed to 8 bits (`44_arithmetic.md` R140, R153) -/

theorem addByte_toNat (x y : Byte) : (addByte x y).toNat = (x.toNat + y.toNat) % 256 :=
  BitVec.toNat_ofNat _ 8

theorem addByte_eq_ofNat (x y : Byte) : addByte x y = BitVec.ofNat 8 ((x.toNat + y.toNat) % 256) := by
  rw [← addByte_toNat, BitVec.ofNat_toNat, BitVec.setWidth_eq]

theorem subByte_toNat (x y : Byte) : (subByte x y).toNat = (x.toNat + 256 - y.toNat) % 256 := by
  have hbyte : y.toNat < 256 := y.isLt
  rw [subByte, BitVec.toNat_ofInt]
  omega

theorem subByte_eq_ofNat (x y : Byte) : subByte x y = BitVec.ofNat 8 ((x.toNat + 256 - y.toNat) % 256) := by
  rw [← subByte_toNat, BitVec.ofNat_toNat, BitVec.setWidth_eq]

theorem subByte_toNat_cast (x y : Byte) : ((subByte x y).toNat : Int) = ((x.toNat : Int) - y.toNat) % 256 := by
  have hbyte : y.toNat < 256 := y.isLt
  rw [subByte_toNat]
  omega

theorem subByte_eq_addByte_complement (x y : Byte) :
    subByte x y = addByte x (BitVec.ofNat 8 ((256 - y.toNat) % 256)) := by
  have hbyte : y.toNat < 256 := y.isLt
  refine BitVec.eq_of_toNat_eq ?_
  rw [subByte_toNat, addByte_toNat, BitVec.toNat_ofNat]
  omega

theorem subByte_eq_zero_iff (x y : Byte) : subByte x y = 0 ↔ x = y := by
  have hx : x.toNat < 256 := x.isLt
  have hy : y.toNat < 256 := y.isLt
  have hzero : (0 : Byte).toNat = 0 := rfl
  rw [← BitVec.toNat_inj, ← BitVec.toNat_inj, subByte_toNat, hzero]
  omega

/-! ## ADD and SUB (R141 to R148) -/

/-- Settles O52: the four forms are one operation, the sum, of the operands in the state it starts in. -/
theorem addAddsIntoTheFirst : Obligations.AddAddsIntoTheFirst :=
  ⟨decodesRB_of_layout (.inl rfl), decodesBR_of_layout (.inl rfl), decodesRB_of_layout (.inr rfl),
    decodesRR_of_layout rfl,
    combinesIntoTheFirst_of_binary addByte_eq_ofNat (fun _ _ _ => rfl) (fun _ _ _ => rfl) (fun _ _ _ => rfl)
      fun _ _ _ => rfl⟩

/-- Settles O53: as ADD, with the operation the difference. -/
theorem subSubtractsFromTheFirst : Obligations.SubSubtractsFromTheFirst :=
  ⟨decodesRB_of_layout (.inl rfl), decodesBR_of_layout (.inl rfl), decodesRB_of_layout (.inr rfl),
    decodesRR_of_layout rfl,
    combinesIntoTheFirst_of_binary subByte_eq_ofNat (fun _ _ _ => rfl) (fun _ _ _ => rfl) (fun _ _ _ => rfl)
      fun _ _ _ => rfl⟩

/-! ## INC and DEC (R149 to R152) -/

theorem increment_eq_ofNat (v : Byte) : increment v = BitVec.ofNat 8 ((v.toNat + 1) % 256) :=
  addByte_eq_ofNat v 1

/-- One less is 255 more, modulo 256. -/
theorem decrement_eq_ofNat (v : Byte) : decrement v = BitVec.ofNat 8 ((v.toNat + 255) % 256) :=
  subByte_eq_ofNat v 1

/-- Settles O54: both forms write the incremented byte back to where it was read. -/
theorem incAddsOne : Obligations.IncAddsOne :=
  ⟨decodesR_of_layout rfl, decodesB_of_layout (.inr rfl),
    fun _ _ => exec_unary_reg rfl (increment_eq_ofNat _),
    fun _ _ hs => exec_unary_mem hs rfl (increment_eq_ofNat _)⟩

/-- Settles O55: as INC, with the byte decremented. -/
theorem decSubtractsOne : Obligations.DecSubtractsOne :=
  ⟨decodesR_of_layout rfl, decodesB_of_layout (.inr rfl),
    fun _ _ => exec_unary_reg rfl (decrement_eq_ofNat _),
    fun _ _ hs => exec_unary_mem hs rfl (decrement_eq_ofNat _)⟩

/-! ## ZF after an instruction (`10_state.md` R15; `44_arithmetic.md` R153)

`setZF` writes bit 0 of R7 last, so that ZF is the flag of the result wherever the result goes, R7 and 0x080 among the
rest, and whatever form memory is in. -/

theorem withFlag_getLsbD_zero (w z : Byte) : (withFlag w z).getLsbD 0 = decide (z = 0) := by
  have hmask : (w &&& 0xFE).getLsbD 0 = false := by
    rw [BitVec.getLsbD_and]
    exact Bool.and_false _
  rw [withFlag, BitVec.getLsbD_or, hmask, Bool.false_or]
  split
  next h => rw [decide_eq_true h]; rfl
  next h => rw [decide_eq_false h]; rfl

theorem retire_zf (p : Place) (v z : Byte) (n : Nat) (s : State) : (retire p v z n s).zf = true ↔ z = 0 := by
  rw [State.zf, retire, State.getReg_advance, State.getReg_setZF_same, withFlag_getLsbD_zero, decide_eq_true_iff]

/-- ZF after an operation on the bytes `x` and `y` that are read, where its result is zero exactly when `P`. -/
theorem exec_binary_zf {i : Instr} {f : Byte → Byte → Byte} {p : Place} {src : Source} {s u w : State} {x y : Byte}
    {n : Nat} {P : Prop} (hexec : exec i s = .next (binary f p src n s)) (hfirst : readPlace p s = (x, u))
    (hsecond : readSource src u = (y, w)) (hP : f x y = 0 ↔ P) : ∃ t, exec i s = .next t ∧ (t.zf = true ↔ P) := by
  refine ⟨_, hexec, ?_⟩
  rw [binary, hfirst, hsecond, retire_zf]
  exact hP

/-- A table of first operand, second operand, result and ZF holds of an instruction on a register and an immediate as
soon as each row gives the result of the operation and the flag of that result. -/
theorem tableRows_of_binary {f : Byte → Byte → Byte} {ri : RegName → Byte → Instr}
    (hri : ∀ d imm s, exec (ri d imm) s = .next (binary f (.reg d) (.imm imm) 3 s))
    {rows : List (Byte × Byte × Byte × Bool)}
    (hrows : rows.all fun row => f row.1 row.2.1 = row.2.2.1 ∧ (row.2.2.1 = 0 ↔ row.2.2.2 = true)) :
    ∀ row ∈ rows, f row.1 row.2.1 = row.2.2.1 ∧
      ∀ (s : State) (d : RegName), s.getReg d = row.1 → ∃ t, exec (ri d row.2.1) s = .next t ∧ t.zf = row.2.2.2 := by
  intro row hrow
  obtain ⟨hresult, hflag⟩ := of_decide_eq_true (List.all_eq_true.mp hrows row hrow)
  refine ⟨hresult, fun s d hd => ?_⟩
  have hzero : f (s.getReg d) row.2.1 = 0 ↔ row.2.2.2 = true := by rw [hd, hresult, hflag]
  obtain ⟨t, hexec, hzf⟩ := exec_binary_zf (hri d row.2.1 s) rfl rfl hzero
  exact ⟨t, hexec, Bool.eq_iff_iff.mpr hzf⟩

/-- Settles O56: ZF is the flag of the result, and a difference is zero exactly when its operands are equal. -/
theorem subIsAddOfTheComplementAndZeroOnEqual : Obligations.SubIsAddOfTheComplementAndZeroOnEqual :=
  ⟨fun x y => ⟨addByte_toNat x y, subByte_toNat_cast x y, subByte_eq_addByte_complement x y, subByte_eq_zero_iff x y⟩,
    fun _ _ _ => exec_binary_zf rfl rfl rfl .rfl,
    fun s a _ => exec_binary_zf rfl (s.memRead_eq (s.ea a)) rfl .rfl,
    fun s _ a => exec_binary_zf rfl rfl (readSource_direct a s) .rfl,
    fun _ _ _ => exec_binary_zf rfl rfl rfl .rfl,
    fun _ _ _ => exec_binary_zf rfl rfl rfl (subByte_eq_zero_iff _ _),
    fun s a _ => exec_binary_zf rfl (s.memRead_eq (s.ea a)) rfl (subByte_eq_zero_iff _ _),
    fun s _ a => exec_binary_zf rfl rfl (readSource_direct a s) (subByte_eq_zero_iff _ _),
    fun _ _ _ => exec_binary_zf rfl rfl rfl (subByte_eq_zero_iff _ _),
    tableRows_of_binary (fun _ _ _ => rfl) (by decide),
    tableRows_of_binary (fun _ _ _ => rfl) (by decide)⟩

end Sys2Proof.Machine
end

section
/-!
PROOFS. JMP, JIF and JNI (`45_control_flow.md`). Every form is a branch whose target is a byte taken from the operand or
from a register; the forms differ only in when the branch is taken.
-/
namespace Sys2Proof.Machine

/-! ## Branches (R160) -/

/-- A branch taken exactly when `P` leaves the pc at its target when `P`, and after the instruction otherwise. -/
theorem exec_branch_iff {i : Instr} {s : State} {taken : Bool} {off : Byte} {n : Nat} {P : Prop} [Decidable P]
    (hexec : exec i s = .next (branch taken off n s)) (htaken : taken = true ↔ P) :
    ∃ t, exec i s = .next t ∧ AfterJump s t (if P then s.ea off else s.pc + BitVec.ofNat 12 n) := by
  refine ⟨_, hexec, ?_⟩
  rw [← if_congr htaken rfl rfl]
  exact branch_after s taken off n

/-! ## When a conditional jump is taken (R163 to R166, R168)

Exactly when the condition operand is 1, so that 0 and 2 to 255 count alike, and ZF is as the mnemonic asks. -/

theorem jif_taken_iff (c : Byte) (s : State) :
    (decide (c = 1) && s.zf) = true ↔ c = 1 ∧ (s.getReg r7).getLsbD 0 = true := by
  rw [Bool.and_eq_true, decide_eq_true_iff, State.zf]

theorem jni_taken_iff (c : Byte) (s : State) :
    (decide (c = 1) && !s.zf) = true ↔ c = 1 ∧ (s.getReg r7).getLsbD 0 = false := by
  rw [Bool.and_eq_true, decide_eq_true_iff, Bool.not_eq_true', State.zf]

/-! ## JMP (R161, R162) -/

/-- Settles O57: both forms are a branch that is always taken. -/
theorem jmpGoesToTheOffsetInThePage : Obligations.JmpGoesToTheOffsetInThePage :=
  ⟨decodesB_of_layout (.inl rfl), decodesR_of_layout rfl,
    fun s o => ⟨_, rfl, branch_after s true o 2⟩,
    fun s r => ⟨_, rfl, branch_after s true (s.getReg r) 2⟩⟩

/-! ## JIF and JNI (R163 to R166) -/

/-- Settles O58: both forms are one branch, on the condition operand and ZF as they are before it. -/
theorem jifJumpsWhenZeroFlagSet : Obligations.JifJumpsWhenZeroFlagSet :=
  ⟨decodesBB_of_layout (.inl rfl), decodesBR_of_layout (.inr rfl),
    fun s c _ => exec_branch_iff rfl (jif_taken_iff c s),
    fun s c _ => exec_branch_iff rfl (jif_taken_iff c s)⟩

/-- Settles O59: as JIF, with ZF clear. -/
theorem jniJumpsWhenZeroFlagClear : Obligations.JniJumpsWhenZeroFlagClear :=
  ⟨decodesBB_of_layout (.inl rfl), decodesBR_of_layout (.inr rfl),
    fun s c _ => exec_branch_iff rfl (jni_taken_iff c s),
    fun s c _ => exec_branch_iff rfl (jni_taken_iff c s)⟩

end Sys2Proof.Machine
end

section
/-!
PROOFS. Faults and ends (`60_exceptions.md`): no instruction stops the machine (R180), bytes that are no instruction
fault it (R181 to R184), and it leaves neither of its two ends (R181, R192).
-/
namespace Sys2Proof.Machine

/-! ## No instruction stops the machine (R180) -/

/-- Settles O16: every instruction has an effect, and answers the state the effect leaves. -/
theorem everyInstructionAnswers : Obligations.EveryInstructionAnswers := by
  intro i s
  obtain ⟨f, -, hexec⟩ := hasEffect i s
  exact ⟨f s, hexec s.disp⟩

/-- Settles O15: of all that a step can do, only a faulted machine answers no next state. -/
theorem stepStopsOnlyWhenFaulted : Obligations.StepStopsOnlyWhenFaulted := by
  intro s
  rcases step_cases s with ⟨i, -, k, -, -, -, hstep⟩ | ⟨e, -, -, hstep⟩ | ⟨-, hstep⟩ | hfaulted
  · obtain ⟨t, hexec⟩ := everyInstructionAnswers i (s.draw k)
    exact .inl ⟨t, hstep.trans hexec⟩
  · exact .inl ⟨_, hstep⟩
  · exact .inl ⟨s, hstep⟩
  · exact .inr hfaulted

/-! ## A fetch reads all that the decoder asks for (R182, R183) -/

theorem regOperand_map_ne_truncated {α : Type} (op : Byte) (k : Slot) (b : Byte) (g : RegName → α) :
    (regOperand op k b).map g ≠ .error .truncated := by
  rcases regOperand_cases op k b with ⟨r, -, hr⟩ | ⟨-, hr⟩
  all_goals
    rw [hr]
    exact nofun

theorem decodeOperands_ne_truncated_of_RR (op : Byte) (mk : RegName → RegName → Instr) (b c : Byte) :
    decodeOperands op (.RR mk) [b, c] ≠ .error .truncated := by
  rcases regOperand_cases op .op1 b with ⟨r, -, hr⟩ | ⟨-, hr⟩
  · simp only [decodeOperands, hr]
    exact regOperand_map_ne_truncated _ _ _ _
  · simp only [decodeOperands, hr]
    exact nofun

/-- Where there is a byte for every operand of the format, the operands are not found truncated: a byte of an IMM or
ADDR position is always taken, and one of a REG position can only be found above 7. -/
theorem decodeOperands_ne_truncated (op : Byte) : ∀ {l : Layout} {bytes : List Byte},
    bytes.length = l.operandTypes.length → decodeOperands op l bytes ≠ .error .truncated
  | .N _, [], _ => nofun
  | .I _, [_], _ | .A _, [_], _ => nofun
  | .II _, [_, _], _ | .IA _, [_, _], _ | .AA _, [_, _], _ => nofun
  | .R _, [_], _ => regOperand_map_ne_truncated _ _ _ _
  | .RI _, [_, _], _ | .RA _, [_, _], _ => regOperand_map_ne_truncated _ _ _ _
  | .AR _, [_, _], _ | .IR _, [_, _], _ => regOperand_map_ne_truncated _ _ _ _
  | .RR mk, [b, c], _ => decodeOperands_ne_truncated_of_RR op mk b c

/-- A fetch gives the opcode byte seen at the pc and as many operand bytes as it asks for. -/
theorem fetch_fst (s : State) :
    ∃ operands, (fetch s).1 = s.sees s.pc 0 :: operands ∧ operands.length = operandCount (s.sees s.pc 0) :=
  ⟨_, rfl, fetchBytes_length _ _ _⟩

theorem decode_fetch_ne_truncated (s : State) : decode (fetch s).1 ≠ .error .truncated := by
  obtain ⟨operands, hfetch, hlength⟩ := fetch_fst s
  rw [hfetch, decode]
  split
  next l hl =>
    rw [operandCount, hl] at hlength
    exact decodeOperands_ne_truncated _ hlength
  next => exact nofun

/-! ## Rejected bytes (R181 to R184) -/

/-- The branch of `step` that rejected bytes take. -/
theorem step_of_decode_error {s : State} {e : DecodeError} (hrun : s.run = .running)
    (hdecode : decode (fetch s).1 = .error e) : step s = .next (s.raise (faultOf s.pc e)) := by
  simp only [step, hrun, hdecode, rejected]

/-- Settles O11: each rejection raises its fault, and a fetch is never truncated. -/
theorem rejectedBytesFaultTheMachine : Obligations.RejectedBytesFaultTheMachine := fun s hrun =>
  ⟨fun _ => step_of_decode_error hrun, fun _ _ _ => step_of_decode_error hrun, decode_fetch_ne_truncated s⟩

/-- Settles O12: away from the device the fetch begins with the stored byte, and without a row it is rejected. -/
theorem unassignedOpcodeInMemoryFaults : Obligations.UnassignedOpcodeInMemoryFaults := by
  refine ⟨fun s hrun hpc hnone => ?_, rfl⟩
  obtain ⟨operands, hfetch, -⟩ := fetch_fst s
  rw [s.sees_of_ne hpc] at hfetch
  exact step_of_decode_error hrun (hfetch ▸ (decode_illegalOpcode_iff _ operands).mpr hnone)

/-! ## The two ends (R181, R192; `10_state.md` R20) -/

theorem step_of_halted {s : State} (h : s.run = .halted) : step s = .next s := by
  simp only [step, h, afterHalt]

theorem step_of_faulted {s : State} {f : Fault} (h : s.run = .faulted f) : step s = .fault f := by
  simp only [step, h, afterFault]

/-- Settles O13, by induction on the number of steps. -/
theorem haltedIsFinal : Obligations.HaltedIsFinal := by
  intro s k hhalted
  induction k with
  | zero => rfl
  | succ k ih => exact (run_succ_of_next (step_of_halted hhalted) k).trans ih

/-- Settles O14: the run stops at its first step. -/
theorem faultedIsFinal : Obligations.FaultedIsFinal := fun _ _ k hfaulted =>
  run_succ_of_fault (step_of_faulted hfaulted) k

end Sys2Proof.Machine
end

section
/-!
PROOFS. Reset and the ends of a run (`70_reset_and_hazards.md`): the start state (R200), the program the host places at
0x090 (R202, R203), and the two ways out of running (R205).
-/
namespace Sys2Proof.Machine

/-! ## The start state (R200) -/

/-- Settles O19: each field of the start state is given, and what a read sees follows from memory and the draws made. -/
theorem startState : Obligations.StartState := by
  refine ⟨fun regs disp image => ?_, _, _, _, rfl⟩
  exact ⟨rfl, fun _ => rfl, rfl, fun a ha => State.sees_of_ne _ ha 0, rfl, rfl, rfl⟩

/-- A start state is not faulted and has sent nothing, so that only its memory has to be canonical. -/
theorem State.start_inv (regs : Vector Byte 8) (disp : Byte) {image : Memory} (h : image.wf) :
    (State.start regs disp image).Inv where
  memory := h
  reason := nofun
  shown := nofun

/-- Settles O20: the empty memory of `State.reset` is canonical. -/
theorem startMeetsTheInvariant : Obligations.StartMeetsTheInvariant :=
  ⟨fun regs disp _ => State.start_inv regs disp, State.start_inv _ _ Memory.nil_wf⟩

/-! ## Loading bytes from outside (R203) -/

@[simp] theorem State.load_pc (s : State) (a : Addr) (bytes : List Byte) : (s.load a bytes).pc = s.pc := by
  induction bytes generalizing s a with
  | nil => rfl
  | cons v vs ih => exact ih (s.memWrite a v) (a + 1)

@[simp] theorem State.load_run (s : State) (a : Addr) (bytes : List Byte) : (s.load a bytes).run = s.run := by
  induction bytes generalizing s a with
  | nil => rfl
  | cons v vs ih => exact ih (s.memWrite a v) (a + 1)

/-- Fewer than 4096 steps from an address do not lead back to it. -/
theorem later_address_ne (a : Addr) {k : Nat} (h : k + 1 < 4096) : a ≠ a + 1 + BitVec.ofNat 12 k := by
  intro heq
  rw [← next_address] at heq
  have hzero := congrArg BitVec.toNat (left_eq_add.mp heq)
  rw [BitVec.toNat_ofNat, Nat.mod_eq_of_lt h] at hzero
  exact absurd hzero k.succ_ne_zero

/-- Loading writes no other byte than those from `a` on. -/
theorem State.byteAt_load_ne (s : State) {a b : Addr} {bytes : List Byte}
    (h : ∀ k, k < bytes.length → b ≠ a + BitVec.ofNat 12 k) : (s.load a bytes).byteAt b = s.byteAt b := by
  induction bytes generalizing s a with
  | nil => rfl
  | cons v vs ih =>
    have hfirst : b ≠ a := a.add_zero ▸ h 0 (Nat.zero_lt_succ _)
    have hrest : ∀ k, k < vs.length → b ≠ a + 1 + BitVec.ofNat 12 k := fun k hk =>
      next_address a k ▸ h (k + 1) (Nat.succ_lt_succ hk)
    exact (ih (s.memWrite a v) hrest).trans (s.byteAt_memWrite_ne v (.inl hfirst))

/-- Bytes that fit in the address space are read back where they were loaded, except at the device: no later byte is
placed over an earlier one. -/
theorem State.byteAt_load {s : State} (hs : s.mem.wf) {a : Addr} {bytes : List Byte} (hfit : bytes.length ≤ 4096)
    {k : Nat} (hk : k < bytes.length) (hne : a + BitVec.ofNat 12 k ≠ 0x080) :
    (s.load a bytes).byteAt (a + BitVec.ofNat 12 k) = bytes[k] := by
  induction bytes generalizing s a k with
  | nil => exact absurd hk (Nat.not_lt_zero k)
  | cons v vs ih =>
    rw [List.length_cons] at hfit hk
    cases k with
    | zero =>
      have ha : a ≠ 0x080 := a.add_zero ▸ hne
      have hkept : ∀ j, j < vs.length → a ≠ a + 1 + BitVec.ofNat 12 j := fun j hj => later_address_ne a (by omega)
      rw [BitVec.add_zero, State.load, State.byteAt_load_ne _ hkept]
      exact State.byteAt_memWrite_same hs v ha
    | succ k =>
      rw [next_address] at hne ⊢
      exact ih (State.memWrite_wf hs a v) (Nat.le_of_succ_le hfit) (Nat.lt_of_succ_lt_succ hk) hne

/-- Bytes loaded at the pc stand there, where none of their addresses is the device's. -/
theorem State.load_holdsAtPc {s : State} (hs : s.mem.wf) {bytes : List Byte} (hfit : bytes.length ≤ 4096)
    (hne : ∀ k, k < bytes.length → s.pc + BitVec.ofNat 12 k ≠ 0x080) : (s.load s.pc bytes).HoldsAtPc bytes := by
  intro k hk
  rw [State.load_pc]
  exact ⟨hne k hk, State.byteAt_load hs hfit hk (hne k hk)⟩

/-! ## The first instruction (R202) -/

/-- The addresses of an instruction at 0x090 are not the device's. -/
theorem start_address_ne {k : Nat} (h : k < 3) : (0x090 : Addr) + BitVec.ofNat 12 k ≠ 0x080 := by
  bv_omega

/-- Settles O22: the loaded bytes stand at the pc of the start state, away from the device. -/
theorem firstInstructionIsAt0x090 : Obligations.FirstInstructionIsAt0x090 := by
  intro regs disp image i himage
  obtain ⟨-, hlength, -⟩ := lengthIsOnePlusOperands i
  have hwf : (State.start regs disp image).mem.wf := himage
  have hholds := State.load_holdsAtPc hwf (Nat.le_trans hlength (by decide)) fun k hk =>
    start_address_ne (Nat.lt_of_lt_of_le hk hlength)
  exact stepRunsTheInstructionInMemory _ i (State.load_run ..) hholds

/-! ## Leaving running (R205) -/

theorem eq_brk_of_mnemonic {i : Instr} (h : i.statement.mnemonic = .BRK) : i = .brk := by
  cases i with
  | brk => rfl
  | _ => cases h

/-- Of the five effects only the one of BRK writes the run state. -/
theorem Effect.run_of_ne_brk {i : Instr} {s : State} {f : State → State} (hf : Effect i s f) (hi : i ≠ .brk)
    (t : State) : (f t).run = t.run := by
  cases hf with
  | retire p v z k => exact retire_run ..
  | send | display | jump => rfl
  | halt hmn => exact absurd (eq_brk_of_mnemonic hmn) hi

theorem exec_brk_run {s t : State} (h : exec .brk s = .next t) : t.run = .halted := by
  cases h
  rfl

theorem exec_run_of_ne_brk {i : Instr} {s t : State} (hi : i ≠ .brk) (h : exec i s = .next t) : t.run = s.run := by
  obtain ⟨f, hf, rfl, -⟩ := effect_of_exec h
  exact hf.run_of_ne_brk hi s

/-- The run state that a step of a running machine leaves, by the bytes it fetched. -/
theorem run_of_step {s t : State} (hrun : s.run = .running) (h : step s = .next t) :
    (∃ rest, decode (fetch s).1 = .ok (.brk, rest) ∧ t.run = .halted) ∨
    (∃ i rest, decode (fetch s).1 = .ok (i, rest) ∧ i ≠ .brk ∧ t.run = .running) ∨
    ∃ e, decode (fetch s).1 = .error e ∧ t.run = .faulted (faultOf s.pc e) := by
  rcases hdecode : decode (fetch s).1 with e | ⟨i, rest⟩
  · cases h.symm.trans (step_of_decode_error hrun hdecode)
    exact .inr (.inr ⟨e, rfl, rfl⟩)
  · obtain ⟨hstep, k, hfetch⟩ := stepRunsTheDecodedInstruction s i rest hrun hdecode
    rw [hfetch] at hstep
    have hexec := hstep.symm.trans h
    by_cases hi : i = .brk
    · subst hi
      exact .inl ⟨rest, rfl, exec_brk_run hexec⟩
    · exact .inr (.inl ⟨i, rest, rfl, hi, (exec_run_of_ne_brk hi hexec).trans hrun⟩)

/-- Settles O18: in each of the three cases of the fetched bytes the run state tells which case it was. -/
theorem leavingRunning : Obligations.LeavingRunning := by
  intro s t hrun h
  rcases run_of_step hrun h with ⟨rest, hdecode, ht⟩ | ⟨i, rest, hdecode, hi, ht⟩ | ⟨e, hdecode, ht⟩
  · simp [hdecode, ht]
  · simp [hdecode, ht, hi]
  · simp [hdecode, ht]

/-- Settles O17: a run that reached both ends would, some steps later, both still answer the halted state and have
stopped with the reason. -/
theorem runEndsInOneWayOnly : Obligations.RunEndsInOneWayOnly := by
  rintro s ⟨⟨k, t, hreach, hhalted⟩, j, u, f, hreach', hfaulted⟩
  have hnext : Host.Core.run Sys2Proof.core (k + (j + 1)) s = .next t :=
    (run_add hreach (j + 1)).trans (haltedIsFinal t (j + 1) hhalted)
  have hfault : Host.Core.run Sys2Proof.core (j + (k + 1)) s = .fault f :=
    (run_add hreach' (k + 1)).trans (faultedIsFinal u f k hfaulted)
  rw [show k + (j + 1) = j + (k + 1) by omega] at hnext
  cases hnext.symm.trans hfault

end Sys2Proof.Machine
end
